-- ==== Sys2Proof/Word.lean ====
section
/-! DEFINITION. The words of the part: bytes, part-clock times, and the fixed groups of like things (two coils, three drive nodes, four notice classes, five sense nodes, eight loops). -/

namespace Sys2Proof

/-- One byte of a frame (section 10.5). -/
abbrev Byte := BitVec 8

/-- The part clock: a millisecond counter of 32 bits that wraps (00_scope.md, Time). -/
abbrev Clock := BitVec 32

/-- One thing for the left and one for the right: coils, wheels. -/
structure Pair (α : Type) where
  left : α
  right : α
  deriving DecidableEq, Repr

/-- One thing per drive node: 0 left wheel, 1 right wheel, 2 blade (R111). -/
structure Three (α : Type) where
  n0 : α
  n1 : α
  n2 : α
  deriving DecidableEq, Repr

/-- One thing per notice class (R196). -/
structure Four (α : Type) where
  motion : α
  hazard : α
  field : α
  store : α
  deriving DecidableEq, Repr

/-- One thing per sense node: 0 coil front-end .. 4 environment node (R133). -/
structure Five (α : Type) where
  s0 : α
  s1 : α
  s2 : α
  s3 : α
  s4 : α
  deriving DecidableEq, Repr

/-- One thing per loop 0..7. -/
structure Eight (α : Type) where
  l0 : α
  l1 : α
  l2 : α
  l3 : α
  l4 : α
  l5 : α
  l6 : α
  l7 : α
  deriving DecidableEq, Repr

end Sys2Proof
end

