-- ==== Sys2Proof/Syntax.lean ====
section
/-! DEFINITION. The commands of the part: one constructor per row of spec/opcode_table.json, with the
operands the rows' rules name. -/

namespace Sys2Proof

/-- A two-valued field of a sense frame as received. The encoding of these fields is not in the spec;
`invalid` stands for every value outside the field's range (R133). -/
inductive SenseBit
  | no
  | yes
  | invalid
  deriving DecidableEq, Repr

/-- What the sense frame check sees of a frame besides its fields (R133): the outcome of the check
value, whose computation the spec does not cover, the node number, and whether the body has the
length of that node's frame kind. -/
structure SenseHead where
  checkOk : Bool
  node : Nat
  lengthOk : Bool
  deriving DecidableEq, Repr

/-- The four signals of one half of an answer (R114). -/
structure Signals where
  accept : Bool
  hold : Bool
  yield : Bool
  reject : Bool
  deriving DecidableEq, Repr

/-- The report kinds of an answer to a REPORT_GRANT (R114). -/
inductive ReportKind
  | none
  | stall
  | overcurrent
  | overtemp
  | encoderFault
  deriving DecidableEq, Repr

/-- One answer on the drive bus (R114). The payload fields that do not belong to the answer's kind
are not looked at. `frameOk` is the outcome of the bus's frame check, which the spec does not cover. -/
structure NodeAnswer where
  node : Fin 3
  number : Byte
  frameOk : Bool
  current : Signals
  lookahead : Signals
  ticks : BitVec 16
  rpm : BitVec 16
  guardClosed : Bool
  report : ReportKind
  reportValue : BitVec 15
  deriving DecidableEq, Repr

/-- One segment body as carried (section 10.5, 18 bytes). -/
structure SegmentBody where
  id : BitVec 16
  kind : Byte
  speed : BitVec 16
  length : BitVec 16
  ratio : BitVec 16
  turnSide : Byte
  followLoop : Byte
  interior : Byte
  target : BitVec 16
  bladeLevel : Byte
  endType : Byte
  endSubject : Byte
  holdThrough : Byte
  deriving DecidableEq, Repr

/-- The four notice classes (R196). -/
inductive NoticeClass
  | motion
  | hazard
  | field
  | store
  deriving DecidableEq, Repr

/-- The commands. A request row is the arrival of that request's whole frame on the planner link. -/
inductive Instr
  | powerOn
  | resetLine
  | plannerFrame (bytes : List Byte)
  | keep (tag : Byte)
  | status (tag : Byte)
  | modeRun (tag : Byte)
  | modeIdle (tag : Byte)
  | modeHome (tag : Byte)
  | modeClear (tag : Byte)
  | planAppend (tag : Byte) (segments : List SegmentBody)
  | planFlush (tag : Byte)
  | tableWriteLoopCode (tag index : Byte) (mask : BitVec 64) (block : List Byte)
  | tableWriteRule (tag index : Byte) (mask : BitVec 64) (block : List Byte)
  | tableWriteZone (tag index : Byte) (mask : BitVec 64) (block : List Byte)
  | tableWritePassage (tag index : Byte) (mask : BitVec 64) (block : List Byte)
  | tableWriteSettings (tag index : Byte) (mask : BitVec 64) (block : List Byte)
  | tableRead (tag table index : Byte)
  | storeModeSet (tag storeMode : Byte)
  | testPatternSet (tag pattern : Byte)
  | clearLog (tag : Byte)
  | collect (tag noticeClass : Byte)
  | restart (tag : Byte)
  | frameSent
  | coilFrame (head : SenseHead) (number : Byte) (left right : List (BitVec 12))
  | bumperFrame (head : SenseHead) (left centre right : SenseBit)
  | attitudeFrame (head : SenseHead) (pitch roll : Int) (lift : SenseBit)
  | rangeFrame (head : SenseHead) (left right : Nat)
  | environmentFrame (head : SenseHead) (rain battery contact : Nat)
  | sensorStale (node : Fin 5)
  | keepTimerExpiry
  | shaperPeriod
  | responseHoldExpiry
  | nodeAnswer (answer : NodeAnswer)
  | responseTimeout
  | readySignal (node : Fin 3)
  | holdLimitExpiry (node : Fin 3)
  | entryReadDone
  | fullEntryWriteDone
  | partialWriteDone
  | scrubExpiry
  | scrubAccessDone
  | noticeHoldExpiry (noticeClass : NoticeClass)
  | noticeQuietExpiry (noticeClass : NoticeClass)
  | syncHunt (length : Byte)
  deriving DecidableEq, Repr

end Sys2Proof
end

