-- ==== Sys2Proof/Decode.lean ====
section
/-! DEFINITION. The words of the opcode table. No row of spec/opcode_table.json gives bits (every
"fields" is empty and there is no "fixed"), so no word spells a command. -/

namespace Sys2Proof

/-- The command that a word spells by the table's bits: none, since the table gives no row bits. -/
def decodeTableWord (_nbits _w : Nat) : Option Instr := none

end Sys2Proof
end

