-- ==== Sys2Proof/Config.lean ====
section
/-! DEFINITION. What the spec leaves open (free values, no body) and the sizes it fixes. -/

namespace Sys2Proof.Config

/-- A byte the spec does not state. The `n`-th free byte a run uses: the frame number byte of a
LOOP_STATE entry whose frame number is absent, and the table and entry bytes of an empty check
capture (section 10.5). Log 11. -/
opaque freeByte : Nat → Byte

/-- Whether a stored pattern value 3, which R56 and R64 do not list, accepts the combined state with
the given code. Log 11. -/
opaque unlistedPatternAccepts : Nat → Bool

/-- The segment queue holds 0..32 records (R75). -/
def queuePlaces : Nat := 32

/-- The receive buffer holds 0..4 frames (R192). -/
def receivePlaces : Nat := 4

/-- A class buffer holds 0..12 entries (R197). -/
def classPlaces : Nat := 12

/-- The home-path stack holds at most 16 entries (R161). -/
def stackPlaces : Nat := 16

/-- The crossing list holds at most 4 events (R159). -/
def crossingPlaces : Nat := 4

/-- The shaper period in ms (R90). -/
def shaperPeriodMs : Nat := 20

/-- The words of the table store (R174). -/
def storeWords : Nat := 366

end Sys2Proof.Config
end

