-- ==== Sys2Proof/Machine/State.lean ====
section
/-! DEFINITION. The state of the part, block by block, as the spec names it, and the state right after
power-on. Every structure is plain data; the default value of a field is its reset value. -/

namespace Sys2Proof.Machine

/-- A timer: what is left of it in ms, or stopped. -/
abbrev Timer := Option Nat

/-! ### Field context unit (R1) -/

/-- The modes of R1, in code order 0..7. -/
inductive Mode
  | idle
  | run
  | maneuver
  | homing
  | docking
  | docked
  | halted
  | safe
  deriving DecidableEq, Repr

/-- The mode a maneuver returns to (R1). -/
inductive Resume
  | run
  | homing
  | docking
  deriving DecidableEq, Repr

/-- Why motion last stopped (R1, R2). -/
inductive StopCause
  | none
  | command
  | hazard (rule : Nat)
  | outsideBuiltin
  | linkSilent
  | tableFault
  | nodeLost
  | homeFailed
  | dockFailed
  | resetLine
  | restart
  deriving DecidableEq, Repr

/-- The blade state (R1, R17, R18), with the level in force while SPINNING. -/
inductive Blade
  | off
  | arming
  | spinning (level : Nat)
  | stopping
  deriving DecidableEq, Repr

/-- The silent action of the settings (R20). -/
inductive SilentAction
  | halt
  | home
  deriving DecidableEq, Repr

/-- The field context record (R1), the keep timer (R19) and the FCU's working copies (R175).
`zoneBladeMax` is the blade max level of the current zone as last handed over (R16);
`levelToSend` is the level of the last permission decision (R16). Reset values: R21, log 15. -/
structure Fcu where
  mode : Mode := .idle
  resume : Option Resume := .none
  stopCause : StopCause := .none
  hazardLevel : Nat := 0
  blade : Blade := .off
  armRefused : Bool := false
  permission : Bool := false
  keepSilent : Bool := false
  keepTimer : Timer := .none
  keepLimit : Nat := 500
  silentAction : SilentAction := .halt
  zoneBladeMax : Nat := 0
  levelToSend : Nat := 0
  deriving DecidableEq, Repr

/-! ### Signal correlator (R41) -/

/-- The role of a loop code entry (R26). -/
inductive Role
  | perimeter
  | guide
  | island
  | foreign
  deriving DecidableEq, Repr

/-- Inside or outside a loop (R39). -/
inductive Side
  | inside
  | outside
  deriving DecidableEq, Repr

/-- SCR's finding for an own loop on a coil (R36 to R39). -/
inductive Verdict
  | missing
  | contested
  | weak
  | found
  deriving DecidableEq, Repr

/-- A coil reading record (R41); its loop and coil are its place. -/
structure Reading where
  frame : Byte
  role : Option Role
  shift : Option Nat
  peak : Option Int
  second : Option Nat
  verdict : Option Verdict
  side : Option Side
  deriving DecidableEq, Repr

/-- A loop code entry (R26). Bit i of `code` is chip i: 1 for −1 (R174). -/
structure LoopEntry where
  valid : Bool
  role : Role
  code : BitVec 32
  inverted : Bool
  minStrength : Nat
  peakRatio : Nat
  confirm : Nat
  lossLimit : Nat
  deriving DecidableEq, Repr

/-- What a loop code read of a frame returned (R29, R35). -/
inductive LoopRead
  | unreadable
  | entry (e : LoopEntry)
  deriving DecidableEq, Repr

/-- A coil frame as handed to SCR (section 2.1). -/
structure CoilFrame where
  number : Byte
  left : List (BitVec 12)
  right : List (BitVec 12)
  deriving DecidableEq, Repr

/-- A frame in processing, with the entries read so far in index order (R24, R29). -/
structure Processing where
  frame : CoilFrame
  reads : List LoopRead
  deriving DecidableEq, Repr

/-- The signal correlator (R41, R23, R24). Reset values: R45. -/
structure Scr where
  readings : Eight (Pair (Option Reading)) :=
    ⟨⟨none, none⟩, ⟨none, none⟩, ⟨none, none⟩, ⟨none, none⟩,
     ⟨none, none⟩, ⟨none, none⟩, ⟨none, none⟩, ⟨none, none⟩⟩
  lastFrame : Option Byte := none
  processing : Option Processing := none
  waiting : Option CoilFrame := none
  deriving DecidableEq, Repr

/-! ### Loop tracker (R46, R61, R62) -/

/-- A loop's combined state (R51), in code order 0..5. -/
inductive Combined
  | unseen
  | inside
  | outside
  | crossLR
  | crossRL
  | lost
  deriving DecidableEq, Repr

/-- A coil's side of a loop, its candidate and agree count (R46, R48). `side = none` is UNSEEN. -/
structure CoilSide where
  side : Option Side := none
  candidate : Option Side := none
  agree : Nat := 0
  deriving DecidableEq, Repr

/-- A loop track record (R46). The defaults are the untracked values of R69. -/
structure LoopTrack where
  tracked : Bool := false
  role : Option Role := none
  confirm : Nat := 1
  lossLimit : Nat := 1
  left : CoilSide := {}
  right : CoilSide := {}
  miss : Nat := 0
  lost : Bool := false
  combined : Combined := .unseen
  previous : Combined := .unseen
  offset : Int := 0
  age : Nat := 255
  deriving DecidableEq, Repr

/-- A result that is not the current zone, waiting for the passage lookup that is part of the
evaluation (R66): the new zone, its blade max level, the zone left, and the zone entered. -/
structure ZoneChange where
  zone : Nat
  bladeMax : Nat
  leaving : Nat
  deriving DecidableEq, Repr

/-- Where a zone evaluation stands: reading the current zone's entry because the zone is held, reading
entry `index` in the scan (R63), or reading passage `index` in the lookup (R66). -/
inductive EvalStage
  | held (zone : Nat)
  | scan (index : Nat)
  | lookup (change : ZoneChange) (index : Nat)
  deriving DecidableEq, Repr

/-- A zone evaluation in progress, with the loop states it took when it began (R62). -/
structure ZoneEval where
  states : Eight Combined
  stage : EvalStage
  deriving DecidableEq, Repr

/-- The loop tracker. Reset values: R69; the copy of the coil spacing: R54, R175. -/
structure Ltr where
  tracks : Eight LoopTrack := ⟨{}, {}, {}, {}, {}, {}, {}, {}⟩
  zone : Option Nat := none
  lastZone : Option Nat := none
  eval : Option ZoneEval := none
  reevaluate : Bool := false
  spacing : Nat := 240
  deriving DecidableEq, Repr

/-! ### Segment queue (R70, R75) -/

/-- LEFT or RIGHT: a turn side, or the side of a wire on which a loop's interior lies. -/
inductive Hand
  | left
  | right
  deriving DecidableEq, Repr

/-- A segment's kind with the fields that belong to it (R70). -/
inductive Shape
  | straight
  | arc (ratio : Nat) (inner : Hand)
  | spin (turn : Hand)
  | follow (loop : Nat) (interior : Hand) (target : Int)
  | pause
  deriving DecidableEq, Repr

/-- An end condition (R70). -/
inductive EndCondition
  | untilCross (loop : Nat)
  | untilZone (zone : Nat)
  deriving DecidableEq, Repr

/-- A segment record (R70). `key` tells one record from another of the same contents (R75, R91). -/
structure Segment where
  key : Nat
  id : BitVec 16
  shape : Shape
  speed : Int
  length : Nat
  bladeLevel : Nat
  endCondition : Option EndCondition
  holdThrough : Bool
  cut : Bool
  deriving DecidableEq, Repr

/-- The segment queue, head first. `active` says that the head is the active segment (R76).
Reset values: R88; the copy of the refill mark: R85, R175. -/
structure Sq where
  queue : List Segment := []
  active : Bool := false
  refillArmed : Bool := true
  starvedArmed : Bool := true
  refillMark : Nat := 8
  deriving DecidableEq, Repr

/-! ### Motion shaper (R89) -/

/-- A source of motion told from every other (R91): a maneuver and its phase, a leg and its phase, one
approach or backoff, one segment record. -/
inductive SourceId
  | maneuver (key : Nat) (spin : Bool)
  | leg (key : Nat) (follow : Bool)
  | dock (key : Nat)
  | segment (key : Nat)
  deriving DecidableEq, Repr

/-- A wheel's odometry (R89): tick reference, reference time, tick carry and distance accumulator. -/
structure Wheel where
  reference : Option (BitVec 16) := none
  referenceTime : Clock := 0
  carry : Nat := 0
  distance : Int := 0
  deriving DecidableEq, Repr

/-- What a period computation waits for: the settings read, or the zone read with the settings values
it uses in hand (R90, R95, R97). -/
inductive CompStage
  | settings
  | zone (settings : List Int)
  deriving DecidableEq, Repr

/-- A period computation in progress (R90): the source chosen (none: standstill), whether that source is
new (R91), and whether a stop or a change of source has come since it began. -/
structure Computation where
  source : Option SourceId
  fresh : Bool
  stopped : Bool
  stage : CompStage
  deriving DecidableEq, Repr

/-- The motion shaper. `source` is the source identity of the previous period computation (R91);
`credited` is the source credited at the previous expiry (R107).
`maneuverSpeed` is the copy of the maneuver speed that a credit to a BACK_TURN uses (R153; log 46: DESIGN CHOICE).
Reset values: R110; the copies of the distance per kilotick and of the maneuver speed: R97, R175. -/
structure Msh where
  previousLeft : Int := 0
  previousRight : Int := 0
  errorMemory : Option Int := none
  source : Option SourceId := none
  credited : Option SourceId := none
  wheels : Pair Wheel := ⟨{}, {}⟩
  odometer : BitVec 32 := 0
  odometerCarry : Nat := 0
  progress : Nat := 0
  progressCarry : Nat := 0
  periodTimer : Timer := some 20
  computation : Option Computation := none
  kilotick : Nat := 188
  maneuverSpeed : Nat := 250
  deriving DecidableEq, Repr

/-! ### Drive bus master (R111) -/

/-- A node's standing on the bus (R111), in code order 0..3. -/
inductive NodeStanding
  | unchecked
  | online
  | holding
  | lost
  deriving DecidableEq, Repr

/-- The transfers of R113 that can be an exchange in hand. -/
inductive Transfer
  | setpoint (speed : Int) (lookahead : Option Int)
  | stop
  | guardRead (level : Nat)
  | bladeRun (level : Nat)
  | bladeStop
  | bladeStatus
  deriving DecidableEq, Repr

/-- An exchange in hand (R111): its transfer, its try count, whether it waits because its node holds
(R117), and whether a refusal of it has already made its walk request (R118). -/
structure Exchange where
  transfer : Transfer
  tries : Nat := 1
  held : Bool := false
  refused : Bool := false
  deriving DecidableEq, Repr

/-- A REPORT_GRANT in hand (R119). -/
structure Grant where
  tries : Nat := 1
  held : Bool := false
  deriving DecidableEq, Repr

/-- The present hold: its start (R111), what is left of the hold limit it began with (R117, R131), and
whether it is the report grant that the node holds, rather than the exchange in hand. -/
structure Hold where
  start : Clock
  left : Nat
  grant : Bool := false
  deriving DecidableEq, Repr

/-- A waiting slot (R122, R123): a stop, and behind it the motion it does not replace. -/
structure Slot where
  stop : Bool := false
  setpoint : Option (Int × Option Int) := none
  arm : Option Nat := none
  deriving DecidableEq, Repr

/-- The payload of the last answer the DBM accepted from the node (R111): a tick count of a wheel node, rpm
and guard status of the blade node. -/
inductive Payload
  | ticks (count : BitVec 16)
  | blade (rpm : BitVec 16) (guardClosed : Bool)
  deriving DecidableEq, Repr

/-- A node record (R111). -/
structure Node where
  standing : NodeStanding := .unchecked
  inHand : Option Exchange := none
  suspended : Bool := false
  superseded : Bool := false
  hold : Option Hold := none
  slot : Slot := {}
  reportOwed : Bool := false
  grant : Option Grant := none
  statusWanted : Bool := false
  lastPayload : Option Payload := none
  deriving DecidableEq, Repr

/-- The bus (R111): free, one try on the wire (node, whether it is a report grant, its exchange number,
what is left of the response limit), or reserved for the write of an interlocked arm. -/
inductive Bus
  | free
  | wire (node : Fin 3) (grant : Bool) (number : Byte) (left : Nat)
  | reserved
  deriving DecidableEq, Repr

/-- The interlock state (R111). -/
inductive Interlock
  | none
  | reading
  | writing
  deriving DecidableEq, Repr

/-- The drive bus master. `resetStops` tells which of the three stops of R132 has not ended.
Reset values: R132, after the reset event's own grant (R126): the left wheel's STOP is on the wire. -/
structure Dbm where
  nodes : Three Node :=
    ⟨{ inHand := some { transfer := .stop } }, { slot := { stop := true } }, { slot := { stop := true } }⟩
  bus : Bus := .wire 0 false 1 2
  interlock : Interlock := .none
  number : Byte := 1
  resetStops : Three Bool := ⟨true, true, true⟩
  responseLimit : Nat := 2
  holdLimit : Nat := 50
  deriving DecidableEq, Repr

/-! ### Sense intake (R134, R136) -/

/-- The latest bumper values (R134). -/
structure BumperValues where
  left : Bool
  centre : Bool
  right : Bool
  time : Clock
  deriving DecidableEq, Repr

/-- The latest attitude values, tenths of a degree (R134). -/
structure AttitudeValues where
  pitch : Int
  roll : Int
  lift : Bool
  time : Clock
  deriving DecidableEq, Repr

/-- The latest ranges in cm (R134). -/
structure RangeValues where
  left : Nat
  right : Nat
  time : Clock
  deriving DecidableEq, Repr

/-- The latest environment values (R134). -/
structure EnvironmentValues where
  rain : Nat
  battery : Nat
  contact : Nat
  time : Clock
  deriving DecidableEq, Repr

/-- The sense intake. Reset values: R134, R137. -/
structure SenseIntake where
  bumper : Option BumperValues := none
  attitude : Option AttitudeValues := none
  range : Option RangeValues := none
  environment : Option EnvironmentValues := none
  stale : Five Bool := ⟨false, false, false, false, false⟩
  timers : Five Timer := ⟨some 50, some 300, some 100, some 200, some 1000⟩
  limits : Five Nat := ⟨50, 300, 100, 200, 1000⟩
  deriving DecidableEq, Repr

/-! ### Hazard rule engine (R138, R146) -/

/-- The sources of walks (R138), in code order 0..16. -/
inductive Source
  | bumpL
  | bumpC
  | bumpR
  | lift
  | pitch
  | roll
  | rangeL
  | rangeR
  | rain
  | battery
  | wheelStall
  | bladeCurrent
  | driveFault
  | wireLost
  | outside
  | sensorStale
  | stray
  deriving DecidableEq, Repr

/-- A walk request (R138). -/
structure WalkRequest where
  source : Source
  subject : Nat
  value : Int
  deriving DecidableEq, Repr

/-- A walk in progress: the zone and mode it took at its beginning and the rule it reads (R142). -/
structure Walk where
  request : WalkRequest
  zone : Option Nat
  mode : Mode
  index : Nat
  deriving DecidableEq, Repr

/-- The actions of a response (R140); NONE makes no response. -/
inductive Action
  | pause
  | backTurn
  | slow
  | stopBlade
  | halt
  | home
  deriving DecidableEq, Repr

/-- A response (R143, R144): `rule = none` is the built-in response. The spin side is resolved. -/
structure Response where
  rule : Option Nat
  source : Source
  action : Action
  level : Nat
  unconditional : Bool
  hold : Nat
  cap : Nat
  reverse : Nat
  spin : Nat
  side : Hand
  deriving DecidableEq, Repr

/-- The active response with its hold timer and, for a BACK_TURN, whether it is in its SPIN phase and
the phase's progress (R150 to R153). `key` tells one maneuver from another (R91). -/
structure Active where
  response : Response
  timer : Timer
  spinning : Bool
  progress : Nat
  key : Nat
  deriving DecidableEq, Repr

/-- The hazard rule engine. Reset values: R157. -/
structure Hre where
  queue : List WalkRequest := []
  walk : Option Walk := none
  active : Option Active := none
  pending : Option Response := none
  deriving DecidableEq, Repr

/-! ### Return unit (R158) -/

/-- A crossing event, and a stack entry, which records one (R158, R159). -/
structure Crossing where
  passage : Nat
  leaving : Nat
  entering : Nat
  odometer : BitVec 32
  deriving DecidableEq, Repr

/-- Which of its two zone entries the application of a crossing reads, with the first one's home rank
(none: the entry cannot be used) once read (R159). -/
inductive ApplyStage
  | leaving
  | entering (rank : Option Nat)
  deriving DecidableEq, Repr

/-- A crossing being applied (R159). -/
structure Applying where
  crossing : Crossing
  stage : ApplyStage
  deriving DecidableEq, Repr

/-- How a planned leg's passage was chosen: from the stack, with the target zone, or by a home link,
with the rank of the start zone (R164). -/
inductive Via
  | stack (target : Nat)
  | link (rank : Nat)
  deriving DecidableEq, Repr

/-- A passage entry (R59). -/
structure PassageEntry where
  valid : Bool
  zoneA : Nat
  zoneB : Nat
  guideLoop : Nat
  interior : Hand
  target : Int
  speed : Nat
  holdThrough : Bool
  deriving DecidableEq, Repr

/-- Where leg planning stands (R164): which entry it reads. `search` is the search distance of the
settings read. -/
inductive PlanStage
  | settings
  | startZone (search : Nat)
  | passage (search index : Nat) (via : Via)
  | targetZone (search index : Nat) (entry : PassageEntry) (target rank : Nat)
  deriving DecidableEq, Repr

/-- A leg planning in progress from zone `start` (R163, R164). -/
structure Planning where
  start : Nat
  stage : PlanStage
  deriving DecidableEq, Repr

/-- A leg record (R165). `search` is the search distance of the planning that made it (R162). -/
structure Leg where
  key : Nat
  passage : Nat
  start : Nat
  target : Nat
  guideLoop : Nat
  interior : Hand
  offset : Int
  speed : Nat
  holdThrough : Bool
  follow : Bool
  distance : Nat
  search : Nat
  deriving DecidableEq, Repr

/-- The settings a dock approach copies (R162, R168). The defaults are those of R162. -/
structure DockParams where
  loop : Nat := 0
  interior : Hand := .left
  target : Int := 0
  approachLimit : Nat := 3000
  threshold : Nat := 20000
  settle : Nat := 3
  backoff : Nat := 400
  retries : Nat := 3
  deriving DecidableEq, Repr

/-- What the RTU is doing in DOCKING (R158). -/
inductive DockActivity
  | none
  | approach
  | backoff
  deriving DecidableEq, Repr

/-- The return unit. The stack and the crossing list are held as R158 orders them: the stack with its
top first, the list oldest first. Reset values: R173, log 15. -/
structure Rtu where
  stack : List Crossing := []
  overflow : Bool := false
  crossings : List Crossing := []
  applying : Option Applying := none
  planDue : Bool := false
  planning : Option Planning := none
  leg : Option Leg := none
  activity : DockActivity := .none
  params : DockParams := {}
  distance : Nat := 0
  finalApproach : Bool := false
  dockKey : Nat := 0
  attempts : Nat := 0
  settle : Nat := 0
  copies : DockParams := {}
  deriving DecidableEq, Repr

/-! ### Table store (R174 to R190) -/

/-- The tables, in code order 0..4 (R174). -/
inductive Table
  | loopCode
  | rule
  | zone
  | passage
  | settings
  deriving DecidableEq, Repr

/-- A stored word: 32 data bits and 7 check bits (R174). -/
structure StoredWord where
  data : BitVec 32
  check : BitVec 7
  deriving DecidableEq, Repr

/-- The table memory: the words that differ from their power-on value, by word number, rising. -/
abbrev Memory := List (Nat × StoredWord)

/-- The store modes, in code order 0..2 (R179). -/
inductive StoreMode
  | normal
  | detectOnly
  | test
  deriving DecidableEq, Repr

/-- The readers, in code order 0..7 (R187). -/
inductive Reader
  | ruleWalk
  | zoneEval
  | correlator
  | returning
  | shaper
  | plannerRead
  | plannerWrite
  | scrub
  deriving DecidableEq, Repr

/-- The activity a request serves, one waiting request each (R177). -/
inductive Owner
  | walk
  | copies
  | correlator
  | zoneEval
  | shaper
  | crossing
  | planning
  | planner
  | scrub
  | scrubCopy
  deriving DecidableEq, Repr

/-- The kinds of access (R177). The writes carry the fields of the value block, clamped. -/
inductive AccessKind
  | entryRead (table : Table) (index : Nat)
  | fullWrite (table : Table) (index : Nat) (fields : List Int)
  | partialWrite (table : Table) (index : Nat) (mask : BitVec 64) (fields : List Int)
  | scrub (word : Nat)
  deriving DecidableEq, Repr

/-- A request to the store (R177). -/
structure Request where
  owner : Owner
  kind : AccessKind
  reader : Reader
  deriving DecidableEq, Repr

/-- The access in progress: its request, the store mode in which it was granted (R179), and whether
its operation has been abandoned, so that its result is discarded (R177). -/
structure Access where
  request : Request
  mode : StoreMode
  discard : Bool
  deriving DecidableEq, Repr

/-- The location of the error log (R187). -/
structure Location where
  table : Table
  entry : Nat
  wordIndex : Nat
  word : Nat
  syndrome : BitVec 7
  reader : Reader
  uncorrectable : Bool
  deriving DecidableEq, Repr

/-- The error log (R187). -/
structure ErrorLog where
  single : Bool := false
  uncorrectable : Bool := false
  location : Option Location := none
  deriving DecidableEq, Repr

/-- The check capture (R182). -/
structure Capture where
  table : Table
  entry : Nat
  words : List (Nat × BitVec 7)
  deriving DecidableEq, Repr

/-- The poisoned marks of the open entries (R183): bit e for entry e. -/
structure Poisoned where
  zones : BitVec 24 := 0
  passages : BitVec 32 := 0
  settings : Bool := false
  deriving DecidableEq, Repr

/-- The table store but for its memory, which stands in `State.mem`. Reset values: R188, R190; the
settings reads of R137 and R188 are asked for in the reset event, the first is granted at once. -/
structure Tst where
  poisoned : Poisoned := {}
  mode : StoreMode := .normal
  pattern : BitVec 7 := 0
  capture : Option Capture := none
  log : ErrorLog := {}
  scrubPointer : Nat := 0
  scrubTimer : Timer := none
  scrubPeriod : Nat := 50
  waiting : List Request := [⟨.scrubCopy, .entryRead .settings 0, .scrub⟩]
  current : Option Access := some ⟨⟨.copies, .entryRead .settings 0, .ruleWalk⟩, .normal, false⟩
  deriving DecidableEq, Repr

/-! ### Planner link port (R191 to R196) -/

/-- The answer codes, in code order 0..10 (R193). -/
inductive AnswerCode
  | ok
  | badFrame
  | badKind
  | badIndex
  | badValue
  | wrongMode
  | queueFull
  | notInside
  | tablesIncomplete
  | storeTest
  | storeError
  deriving DecidableEq, Repr

/-- A frame's place in the receive buffer (R192, R193). -/
inductive RxStatus
  | waiting
  | inHand
  | answered
  deriving DecidableEq, Repr

/-- A frame in the receive buffer (R192). -/
structure RxFrame where
  kind : Byte
  tag : Byte
  body : List Byte
  status : RxStatus
  deriving DecidableEq, Repr

/-- Where the entry check of R5 stands: which entry it reads, with the valid PERIMETER loops read so far,
then the one there is. -/
inductive CheckStage
  | loops (index : Nat) (perimeters : List Nat)
  | zones (index perimeter : Nat)
  | settings (perimeter : Nat)
  | dockZone (perimeter : Nat)
  deriving DecidableEq, Repr

/-- What is left to check of a PLAN_APPEND, in carried order (R73): a check that fails, a loop that must
be a valid own loop, a zone that must be valid and unpoisoned, each with the segment's position. -/
inductive AppendCheck
  | fail (position : Nat)
  | loop (position index : Nat)
  | zone (position index : Nat)
  deriving DecidableEq, Repr

/-- What is left to check of a TABLE_WRITE: a check that fails, or a loop whose entry must be valid, with
ISLAND among the roles it may have or not (R57, R60, R162). -/
inductive WriteCheck
  | fail
  | loop (index : Nat) (islandAllowed : Bool)
  deriving DecidableEq, Repr

/-- A request in hand that is an operation (R193). -/
inductive PlannerOp
  | entryCheck (home : Bool) (stage : CheckStage)
  | append (segments : List Segment) (todo : List AppendCheck)
  | tableRead (table : Table) (index : Nat)
  | tableWrite (table : Table) (index : Nat) (mask : BitVec 64) (fields : List Int)
      (todo : List WriteCheck)
  | writing (table : Table) (index : Nat)
  deriving DecidableEq, Repr

/-- The kinds of notice entry, in code order 0..18 (section 10.5). -/
inductive EntryKind
  | segDone
  | refill
  | starved
  | taken
  | deferred
  | dropped
  | ignored
  | ended
  | modeChanged
  | zoneChanged
  | loopState
  | crossing
  | stackOverflow
  | dockAttempt
  | contactLost
  | nodeState
  | keepState
  | store
  | poisoned
  deriving DecidableEq, Repr

/-- A notice entry (section 10.5). -/
structure Entry where
  kind : EntryKind
  subject : Nat
  value : Nat
  time : Clock
  deriving DecidableEq, Repr

/-- The reset kinds, in code order 0..2 (R196). -/
inductive ResetKind
  | powerOn
  | resetLine
  | restart
  deriving DecidableEq, Repr

/-- A frame of the transmit list (R196). -/
inductive TxFrame
  | answer (tag : Byte) (code : AnswerCode) (data : List Byte)
  | notice (noticeClass : NoticeClass) (gap : Bool) (entries : List Entry)
  | started (kind : ResetKind)
  deriving DecidableEq, Repr

/-- The planner link port. `restarting` is set from the ANSWER of a RESTART to its reset (R193).
Reset values: R200, log 15. -/
structure Plp where
  hunt : List Byte := []
  rx : List RxFrame := []
  op : Option PlannerOp := none
  restarting : Bool := false
  tx : List TxFrame := [.started .powerOn]
  deriving DecidableEq, Repr

/-! ### Notice coalescer (R197) -/

/-- A class's buffer, timers, marks, and the working copies of its three limits (R197). -/
structure ClassBuffer where
  entries : List Entry := []
  holdTimer : Timer := none
  quietTimer : Timer := none
  gap : Bool := false
  due : Bool := false
  batch : Nat
  holdLimit : Nat
  quietLimit : Nat
  deriving DecidableEq, Repr

/-- The notice coalescer. Reset values: R200, with the default limits of R195. -/
structure Nco where
  classes : Four ClassBuffer :=
    ⟨{ batch := 4, holdLimit := 200, quietLimit := 50 },
     { batch := 1, holdLimit := 0, quietLimit := 0 },
     { batch := 6, holdLimit := 500, quietLimit := 100 },
     { batch := 12, holdLimit := 1000, quietLimit := 0 }⟩
  urgentLevel : Nat := 12
  deriving DecidableEq, Repr

/-! ### The whole part -/

/-- The model's own marks of what is still to be done in the present event (log 4); all clear between
events. `held` is the deferral test as it stood when the event began (R147); `frames` is the length of
the transmit list when the event began, behind which the event's frames are put in order (R196). -/
structure Agenda where
  blade : Bool := false
  deferral : Bool := false
  source : Bool := false
  removed : Bool := false
  starved : Bool := false
  returning : Bool := false
  period : Bool := false
  walk : Bool := false
  bus : Bool := false
  store : Bool := false
  port : Bool := false
  held : Bool := false
  frames : Nat := 0
  deriving DecidableEq, Repr

/-- The twelve blocks, the part clock and the model's own counters and marks: everything but the table
memory and the queue of commands. -/
structure Part where
  fcu : Fcu := {}
  scr : Scr := {}
  ltr : Ltr := {}
  sq : Sq := {}
  msh : Msh := {}
  dbm : Dbm := {}
  sin : SenseIntake := {}
  hre : Hre := {}
  rtu : Rtu := {}
  tst : Tst := {}
  plp : Plp := {}
  nco : Nco := {}
  clock : Clock := 0
  serial : Nat := 0
  free : Nat := 0
  agenda : Agenda := {}
  deriving DecidableEq, Repr

/-- The state: the blocks, the table memory (R174), and the commands that wait, first in first out. -/
structure State where
  part : Part := {}
  mem : Memory := []
  pending : List Instr := []
  deriving DecidableEq, Repr

/-- The machine right after power-on (R21, R45, R69, R88, R110, R132, R137, R157, R173, R190, R200). -/
def State.reset : State := {}

/-- Why a step stops. -/
inductive Fault
  /-- Raised by the four completions of a table store access when the access names an entry or a word
  outside the tables, which R174 numbers 0..365. The part's rules never ask for such an access, and no
  run from reset reaches one. Safe: the model stops where the spec gives no meaning. Log 13. -/
  | noSuchWord
  deriving DecidableEq, Repr

/-- Why a command is turned away by the model. -/
inductive Refusal
  /-- Raised by an arm of `exec` for a command that has no meaning yet; the string is its row's
  mnemonic. Safe: nothing is claimed of it. -/
  | notModelled (mnemonic : String)
  deriving DecidableEq, Repr

end Sys2Proof.Machine
end

