-- ==== Sys2Proof/Machine/Arith.lean ====
section
/-! DEFINITION. The arithmetic the chapters share: clamps, the two roundings, timers, and reading and
writing one of a group of like things. -/

namespace Sys2Proof.Machine

/-- Clamp into lo..hi (00_scope.md, Numbers and rounding). -/
def clampInt (lo hi v : Int) : Int := if v < lo then lo else if hi < v then hi else v

/-- The quotient n / d rounded to nearest, half away from zero, for d > 0 (R54 step 3). -/
def roundHalfAway (n : Int) (d : Nat) : Int :=
  let q := n.natAbs / d
  let m := if d ≤ 2 * (n.natAbs % d) then q + 1 else q
  if n < 0 then -(m : Int) else (m : Int)

/-- Add to a count that stops at its largest value. -/
def saturate (largest n : Nat) : Nat := if largest < n then largest else n

/-- A timer started with a limit, where a limit of 0 leaves it stopped (R197, R188). -/
def Timer.startUnlessZero (limit : Nat) : Timer := if limit = 0 then none else some limit

/-- One millisecond passes for a timer. -/
def Timer.tick (t : Timer) : Timer := t.map (· - 1)

/-- The timer has run out: it runs and nothing is left of it. -/
def Timer.due (t : Timer) : Bool := t == some 0

end Sys2Proof.Machine

namespace Sys2Proof

def Three.get {α : Type} (t : Three α) : Fin 3 → α
  | 0 => t.n0
  | 1 => t.n1
  | 2 => t.n2

def Three.set {α : Type} (t : Three α) (i : Fin 3) (a : α) : Three α :=
  match i with
  | 0 => { t with n0 := a }
  | 1 => { t with n1 := a }
  | 2 => { t with n2 := a }

def Four.get {α : Type} (t : Four α) : NoticeClass → α
  | .motion => t.motion
  | .hazard => t.hazard
  | .field => t.field
  | .store => t.store

def Four.set {α : Type} (t : Four α) (c : NoticeClass) (a : α) : Four α :=
  match c with
  | .motion => { t with motion := a }
  | .hazard => { t with hazard := a }
  | .field => { t with field := a }
  | .store => { t with store := a }

def Five.get {α : Type} (t : Five α) : Fin 5 → α
  | 0 => t.s0
  | 1 => t.s1
  | 2 => t.s2
  | 3 => t.s3
  | 4 => t.s4

def Five.set {α : Type} (t : Five α) (i : Fin 5) (a : α) : Five α :=
  match i with
  | 0 => { t with s0 := a }
  | 1 => { t with s1 := a }
  | 2 => { t with s2 := a }
  | 3 => { t with s3 := a }
  | 4 => { t with s4 := a }

def Eight.get {α : Type} (t : Eight α) : Fin 8 → α
  | 0 => t.l0
  | 1 => t.l1
  | 2 => t.l2
  | 3 => t.l3
  | 4 => t.l4
  | 5 => t.l5
  | 6 => t.l6
  | 7 => t.l7

def Eight.set {α : Type} (t : Eight α) (i : Fin 8) (a : α) : Eight α :=
  match i with
  | 0 => { t with l0 := a }
  | 1 => { t with l1 := a }
  | 2 => { t with l2 := a }
  | 3 => { t with l3 := a }
  | 4 => { t with l4 := a }
  | 5 => { t with l5 := a }
  | 6 => { t with l6 := a }
  | 7 => { t with l7 := a }

def Eight.map {α β : Type} (f : α → β) (t : Eight α) : Eight β :=
  ⟨f t.l0, f t.l1, f t.l2, f t.l3, f t.l4, f t.l5, f t.l6, f t.l7⟩

def Eight.toList {α : Type} (t : Eight α) : List α :=
  [t.l0, t.l1, t.l2, t.l3, t.l4, t.l5, t.l6, t.l7]

end Sys2Proof

namespace Sys2Proof.Machine

/-- Loop indices 0..7, in order. -/
def loopIndices : List (Fin 8) := [0, 1, 2, 3, 4, 5, 6, 7]

end Sys2Proof.Machine
end

