-- ==== Sys2Proof/Machine/Operands.lean ====
section
/-! DEFINITION. The operand forms: bytes, codes, frames and their CRC, the hunt for frames, the request
bodies, the packing of table entries into words, and the value blocks (R174, R175, R191, R194, R195,
section 10.5). -/

namespace Sys2Proof.Machine

/-! ### Bytes -/

/-- The low byte of a number. -/
def byte (n : Nat) : Byte := BitVec.ofNat 8 n

/-- A two-byte field, high byte first (section 10.5). -/
def bytes2 (n : Nat) : List Byte := [byte (n / 256), byte n]

/-- A four-byte field, high byte first. -/
def bytes4 (n : Nat) : List Byte := [byte (n / 16777216), byte (n / 65536), byte (n / 256), byte n]

/-- A signed two-byte field, two's complement. -/
def signed2 (v : Int) : List Byte := bytes2 (BitVec.ofInt 16 v).toNat

/-- A yes/no field or a mark as the part sends it: 1 for yes (log 10). -/
def flag (b : Bool) : Byte := if b then 1 else 0

/-- The number held by bytes sent high byte first. -/
def number (bs : List Byte) : Nat := bs.foldl (fun n b => n * 256 + b.toNat) 0

/-- Byte i of a body. -/
def byteAt (bs : List Byte) (i : Nat) : Byte := bs.getD i 0

/-- The unsigned two-byte field at byte i. -/
def field16 (bs : List Byte) (i : Nat) : Nat := (byteAt bs i).toNat * 256 + (byteAt bs (i + 1)).toNat

/-- The signed two-byte field at byte i. -/
def signed16 (bs : List Byte) (i : Nat) : Int := (BitVec.ofNat 16 (field16 bs i)).toInt

/-! ### Codes -/

/-- The mode codes of R1. -/
def Mode.code : Mode → Nat
  | .idle => 0
  | .run => 1
  | .maneuver => 2
  | .homing => 3
  | .docking => 4
  | .docked => 5
  | .halted => 6
  | .safe => 7

/-- RUN, MANEUVER, HOMING and DOCKING are the moving modes (R1). -/
def Mode.moving : Mode → Bool
  | .run | .maneuver | .homing | .docking => true
  | .idle | .docked | .halted | .safe => false

def Resume.mode : Resume → Mode
  | .run => .run
  | .homing => .homing
  | .docking => .docking

/-- The stop cause codes of R1. -/
def StopCause.code : StopCause → Nat
  | .none => 0
  | .command => 1
  | .hazard _ => 2
  | .outsideBuiltin => 3
  | .linkSilent => 4
  | .tableFault => 5
  | .nodeLost => 6
  | .homeFailed => 7
  | .dockFailed => 8
  | .resetLine => 9
  | .restart => 10

/-- The rule index beside the stop cause code, 255 when not HAZARD (section 10.5). -/
def StopCause.rule : StopCause → Nat
  | .hazard rule => rule
  | _ => 255

/-- The blade state codes of R1. -/
def Blade.code : Blade → Nat
  | .off => 0
  | .arming => 1
  | .spinning _ => 2
  | .stopping => 3

/-- The level in force, 0 unless SPINNING (section 10.5). -/
def Blade.level : Blade → Nat
  | .spinning level => level
  | _ => 0

/-- The combined state codes of R51. -/
def Combined.code : Combined → Nat
  | .unseen => 0
  | .inside => 1
  | .outside => 2
  | .crossLR => 3
  | .crossRL => 4
  | .lost => 5

/-- CROSS_LR or CROSS_RL: the loop's wire runs between the coils (R51). -/
def Combined.cross : Combined → Bool
  | .crossLR | .crossRL => true
  | .unseen | .inside | .outside | .lost => false

/-- The node state codes of R111. -/
def NodeStanding.code : NodeStanding → Nat
  | .unchecked => 0
  | .online => 1
  | .holding => 2
  | .lost => 3

/-- The source codes of R138. -/
def Source.code : Source → Nat
  | .bumpL => 0
  | .bumpC => 1
  | .bumpR => 2
  | .lift => 3
  | .pitch => 4
  | .roll => 5
  | .rangeL => 6
  | .rangeR => 7
  | .rain => 8
  | .battery => 9
  | .wheelStall => 10
  | .bladeCurrent => 11
  | .driveFault => 12
  | .wireLost => 13
  | .outside => 14
  | .sensorStale => 15
  | .stray => 16

/-- The action codes of R140; NONE, 6, makes no response. -/
def Action.code : Action → Nat
  | .pause => 0
  | .backTurn => 1
  | .slow => 2
  | .stopBlade => 3
  | .halt => 4
  | .home => 5

def Table.code : Table → Nat
  | .loopCode => 0
  | .rule => 1
  | .zone => 2
  | .passage => 3
  | .settings => 4

/-- The table of a carried table code (R193 check 3). -/
def Table.ofCode (b : Byte) : Option Table :=
  match b.toNat with
  | 0 => some .loopCode
  | 1 => some .rule
  | 2 => some .zone
  | 3 => some .passage
  | 4 => some .settings
  | _ => none

def StoreMode.code : StoreMode → Nat
  | .normal => 0
  | .detectOnly => 1
  | .test => 2

def StoreMode.ofCode (b : Byte) : Option StoreMode :=
  match b.toNat with
  | 0 => some .normal
  | 1 => some .detectOnly
  | 2 => some .test
  | _ => none

/-- The reader codes of R187. -/
def Reader.code : Reader → Nat
  | .ruleWalk => 0
  | .zoneEval => 1
  | .correlator => 2
  | .returning => 3
  | .shaper => 4
  | .plannerRead => 5
  | .plannerWrite => 6
  | .scrub => 7

/-- The answer codes of R193. -/
def AnswerCode.code : AnswerCode → Nat
  | .ok => 0
  | .badFrame => 1
  | .badKind => 2
  | .badIndex => 3
  | .badValue => 4
  | .wrongMode => 5
  | .queueFull => 6
  | .notInside => 7
  | .tablesIncomplete => 8
  | .storeTest => 9
  | .storeError => 10

end Sys2Proof.Machine

namespace Sys2Proof

open Machine

def NoticeClass.code : NoticeClass → Nat
  | .motion => 0
  | .hazard => 1
  | .field => 2
  | .store => 3

def NoticeClass.ofCode (b : Byte) : Option NoticeClass :=
  match b.toNat with
  | 0 => some .motion
  | 1 => some .hazard
  | 2 => some .field
  | 3 => some .store
  | _ => none

end Sys2Proof

namespace Sys2Proof.Machine

def ResetKind.code : ResetKind → Nat
  | .powerOn => 0
  | .resetLine => 1
  | .restart => 2

/-- The entry kinds' codes (section 10.5). -/
def EntryKind.code : EntryKind → Nat
  | .segDone => 0
  | .refill => 1
  | .starved => 2
  | .taken => 3
  | .deferred => 4
  | .dropped => 5
  | .ignored => 6
  | .ended => 7
  | .modeChanged => 8
  | .zoneChanged => 9
  | .loopState => 10
  | .crossing => 11
  | .stackOverflow => 12
  | .dockAttempt => 13
  | .contactLost => 14
  | .nodeState => 15
  | .keepState => 16
  | .store => 17
  | .poisoned => 18

/-- The class each entry kind belongs to (section 10.5). -/
def EntryKind.noticeClass : EntryKind → NoticeClass
  | .segDone | .refill | .starved => .motion
  | .taken | .deferred | .dropped | .ignored | .ended => .hazard
  | .modeChanged | .zoneChanged | .loopState | .crossing | .stackOverflow | .dockAttempt
  | .contactLost | .nodeState | .keepState => .field
  | .store | .poisoned => .store

/-- A zone number in an answer or entry: 255 for UNKNOWN or absent (R61). -/
def zoneCode : Option Nat → Nat
  | some z => z
  | none => 255

/-! ### Frames on the planner link (R191, R196) -/

/-- One bit of the CRC: shift left and, when the bit shifted out is 1, take in x^12 + x^5 + 1. -/
def crcBit (c : BitVec 16) : BitVec 16 :=
  if c.msb then (c <<< 1) ^^^ 0x1021#16 else c <<< 1

/-- One byte of the CRC, most significant bit first. -/
def crcByte (c : BitVec 16) (b : Byte) : BitVec 16 :=
  crcBit (crcBit (crcBit (crcBit (crcBit (crcBit (crcBit (crcBit
    (c ^^^ (b.setWidth 16 <<< 8)))))))))

/-- The CRC-16 of R191: polynomial x^16 + x^12 + x^5 + 1, initial value 65535. -/
def crc16 (bs : List Byte) : BitVec 16 := bs.foldl crcByte 0xFFFF#16

/-- The frame of a kind, tag and body as it goes over the link (R191). -/
def frameBytes (kind tag : Byte) (body : List Byte) : List Byte :=
  let covered := byte body.length :: kind :: tag :: body
  90 :: covered ++ bytes2 (crc16 covered).toNat

/-- A frame whose CRC matches. -/
structure LinkFrame where
  kind : Byte
  tag : Byte
  body : List Byte
  deriving DecidableEq, Repr

/-- What the bytes after a sync byte come to: more bytes are needed, no frame (the hunt resumes at the
byte after the sync byte), or a frame whose CRC matches, with the bytes behind it (R191). -/
inductive FrameScan
  | wait
  | noFrame
  | frame (f : LinkFrame) (rest : List Byte)
  deriving DecidableEq, Repr

/-- Examine the bytes after a sync byte (R191). -/
def scanFrame : List Byte → FrameScan
  | [] => .wait
  | length :: rest =>
    if 250 < length.toNat then .noFrame
    else if rest.length < length.toNat + 4 then .wait
    else
      match rest with
      | kind :: tag :: more =>
        let body := more.take length.toNat
        let crc := (more.drop length.toNat).take 2
        if crc = bytes2 (crc16 (length :: kind :: tag :: body)).toNat then
          .frame ⟨kind, tag, body⟩ (more.drop (length.toNat + 2))
        else .noFrame
      | _ => .wait

/-- Hunt through the bytes received: the frames that have arrived, and the bytes that are left, which
begin with a sync byte. The fuel is the number of bytes: every round takes at least one. -/
def hunt : Nat → List Byte → List LinkFrame × List Byte
  | 0, bs => ([], bs)
  | _ + 1, [] => ([], [])
  | fuel + 1, b :: rest =>
    if b = 90 then
      match scanFrame rest with
      | .wait => ([], b :: rest)
      | .noFrame => hunt fuel rest
      | .frame f behind => let r := hunt fuel behind; (f :: r.1, r.2)
    else hunt fuel rest

/-! ### Notice entries and frames from the part (section 10.5) -/

/-- A notice entry, 11 bytes. -/
def Entry.bytes (e : Entry) : List Byte :=
  byte e.kind.code :: bytes2 e.subject ++ bytes4 e.value ++ bytes4 e.time.toNat

/-- The entries of a NOTICE or COLLECT, oldest first. -/
def entriesBytes (es : List Entry) : List Byte := es.flatMap Entry.bytes

/-- The body of a frame from the part (R196). -/
def TxFrame.body : TxFrame → List Byte
  | .answer _ code data => byte code.code :: data
  | .notice c gap entries =>
    byte c.code :: byte entries.length :: flag gap :: entriesBytes entries
  | .started kind => [byte kind.code]

/-- The frame as sent (R196): ANSWER 128, NOTICE 129, STARTED 130. -/
def TxFrame.wire (f : TxFrame) : List Byte :=
  match f with
  | .answer tag .. => frameBytes 128 tag f.body
  | .notice .. => frameBytes 129 0 f.body
  | .started _ => frameBytes 130 0 f.body

/-! ### Table layouts (R26, R56, R59, R140, R174, R175) -/

/-- How a field behaves on write (R195): a yes/no field, a field of structure, which is refused when out
of range, or a tuning field, which is clamped. -/
inductive FieldKind
  | yesNo
  | structural
  | tuning
  deriving DecidableEq, Repr

/-- A field of an entry: its first bit, counted from data bit 0 of the entry's word 0, its width, its
range, its default, and whether it is carried signed. -/
structure Field where
  off : Nat
  width : Nat
  low : Int
  high : Int
  default : Int
  kind : FieldKind
  signed : Bool := false
  deriving DecidableEq, Repr

/-- The loop code entry of R26. The code field is held as 32 bits, bit i for chip i (R174). -/
def loopLayout : List Field :=
  [⟨32, 1, 0, 1, 0, .yesNo, false⟩,
   ⟨33, 2, 0, 3, 0, .structural, false⟩,
   ⟨0, 32, 0, 4294967295, 0, .structural, false⟩,
   ⟨35, 1, 0, 1, 0, .structural, false⟩,
   ⟨64, 16, 1, 65535, 1, .tuning, false⟩,
   ⟨36, 6, 8, 63, 8, .tuning, false⟩,
   ⟨42, 3, 1, 7, 1, .tuning, false⟩,
   ⟨45, 8, 1, 255, 1, .tuning, false⟩]

/-- The zone entry of R56. The pattern is held as two bits per loop from bit 0 (R174). -/
def zoneLayout : List Field :=
  [⟨0, 1, 0, 1, 0, .yesNo, false⟩,
   ⟨1, 16, 0, 65535, 0, .structural, false⟩,
   ⟨32, 11, 0, 1500, 0, .tuning, false⟩,
   ⟨43, 2, 0, 3, 0, .tuning, false⟩,
   ⟨64, 9, 0, 450, 0, .tuning, false⟩,
   ⟨73, 9, 0, 450, 450, .tuning, false⟩,
   ⟨45, 4, 0, 15, 0, .structural, false⟩,
   ⟨49, 6, 0, 32, 32, .structural, false⟩]

/-- The passage entry of R59. -/
def passageLayout : List Field :=
  [⟨0, 1, 0, 1, 0, .yesNo, false⟩,
   ⟨1, 5, 0, 23, 0, .structural, false⟩,
   ⟨6, 5, 0, 23, 1, .structural, false⟩,
   ⟨11, 3, 0, 7, 0, .structural, false⟩,
   ⟨14, 1, 0, 1, 0, .structural, false⟩,
   ⟨32, 9, -200, 200, 0, .tuning, true⟩,
   ⟨41, 11, 0, 1500, 0, .tuning, false⟩,
   ⟨52, 1, 0, 1, 0, .yesNo, false⟩]

/-- The rule entry of R140 whose action has the given code: the action parameters it does not store have
no bits (R174). -/
def ruleLayout (action : Nat) : List Field :=
  let hold := if action = 0 ∨ action = 2 ∨ action = 3 then 16 else 0
  let cap := if action = 2 then 11 else 0
  let turn := if action = 1 then 13 else 0
  let side := if action = 1 then 2 else 0
  [⟨0, 1, 0, 1, 0, .yesNo, false⟩,
   ⟨1, 5, 0, 16, 0, .structural, false⟩,
   ⟨6, 3, 0, 4, 4, .structural, false⟩,
   ⟨9, 16, -32768, 32767, 0, .tuning, true⟩,
   ⟨25, 25, 0, 33554431, 0, .structural, false⟩,
   ⟨50, 8, 0, 255, 0, .structural, false⟩,
   ⟨58, 1, 0, 1, 0, .structural, false⟩,
   ⟨59, 4, 1, 15, 1, .tuning, false⟩,
   ⟨63, 1, 0, 1, 0, .yesNo, false⟩,
   ⟨64, 3, 0, 6, 6, .structural, false⟩,
   ⟨67, hold, 0, 65535, 0, .tuning, false⟩,
   ⟨83, cap, 0, 1500, 0, .tuning, false⟩,
   ⟨67, turn, 0, 8000, 0, .tuning, false⟩,
   ⟨80, turn, 0, 8000, 0, .tuning, false⟩,
   ⟨93, side, 0, 2, 0, .structural, false⟩]

/-- Fields packed in position order from a first bit on (R174), each given by its width, range, default
and kind. -/
def packedFrom : Nat → List (Nat × Int × Int × Int × FieldKind × Bool) → List Field
  | _, [] => []
  | off, (width, low, high, dflt, kind, signed) :: rest =>
    ⟨off, width, low, high, dflt, kind, signed⟩ :: packedFrom (off + width) rest

/-- Positions 0..21 of the settings entry (R175): keep limit, silent action, coil spacing, refill mark,
the shaper's fields of R97, response and hold limit, and the freshness limits of R137. -/
def settingsFirst : List (Nat × Int × Int × Int × FieldKind × Bool) :=
  [(13, 50, 5000, 500, .tuning, false), (1, 0, 1, 0, .structural, false),
   (9, 100, 400, 240, .tuning, false), (5, 0, 31, 8, .tuning, false),
   (11, 0, 1500, 200, .tuning, false), (9, 0, 450, 80, .tuning, false),
   (9, 0, 450, 160, .tuning, false), (8, 5, 200, 25, .tuning, false),
   (8, 0, 255, 96, .tuning, false), (8, 0, 255, 160, .tuning, false),
   (10, 0, 600, 300, .tuning, false), (11, 0, 1500, 250, .tuning, false),
   (11, 0, 1500, 300, .tuning, false), (11, 0, 1500, 150, .tuning, false),
   (10, 50, 1000, 188, .tuning, false), (5, 1, 20, 2, .tuning, false),
   (9, 5, 500, 50, .tuning, false), (11, 20, 2000, 50, .tuning, false),
   (11, 20, 2000, 300, .tuning, false), (11, 20, 2000, 100, .tuning, false),
   (11, 20, 2000, 200, .tuning, false), (11, 20, 2000, 1000, .tuning, false)]

/-- Positions 22..45 of the settings entry (R175): the dock fields of R162, the urgent level, the batch,
hold and quiet limits of the four classes (R195), class by class (log 44), and the scrub period. -/
def settingsSecond : List (Nat × Int × Int × Int × FieldKind × Bool) :=
  [(5, 0, 23, 0, .structural, false), (3, 0, 7, 0, .structural, false),
   (1, 0, 1, 0, .structural, false), (9, -200, 200, 0, .tuning, true),
   (15, 500, 30000, 8000, .tuning, false), (15, 500, 20000, 3000, .tuning, false),
   (15, 1000, 32767, 20000, .tuning, false), (4, 1, 15, 3, .tuning, false),
   (11, 100, 2000, 400, .tuning, false), (3, 1, 7, 3, .tuning, false),
   (4, 1, 15, 12, .tuning, false),
   (4, 1, 12, 4, .tuning, false), (13, 0, 5000, 200, .tuning, false), (13, 0, 5000, 50, .tuning, false),
   (4, 1, 12, 1, .tuning, false), (13, 0, 5000, 0, .tuning, false), (13, 0, 5000, 0, .tuning, false),
   (4, 1, 12, 6, .tuning, false), (13, 0, 5000, 500, .tuning, false), (13, 0, 5000, 100, .tuning, false),
   (4, 1, 12, 12, .tuning, false), (13, 0, 5000, 1000, .tuning, false), (13, 0, 5000, 0, .tuning, false),
   (10, 0, 1000, 50, .tuning, false)]

/-- The settings entry of R175. -/
def settingsLayout : List Field := packedFrom 0 (settingsFirst ++ settingsSecond)

/-- The layout of a table's entry; for a rule, with the given action code. -/
def layout (t : Table) (action : Nat) : List Field :=
  match t with
  | .loopCode => loopLayout
  | .rule => ruleLayout action
  | .zone => zoneLayout
  | .passage => passageLayout
  | .settings => settingsLayout

/-- The number of entries of a table (R174). -/
def Table.entries : Table → Nat
  | .loopCode => 8
  | .rule => 64
  | .zone => 24
  | .passage => 32
  | .settings => 1

/-- The words per entry of a table (R174). -/
def Table.words : Table → Nat
  | .loopCode => 3
  | .rule => 3
  | .zone => 3
  | .passage => 2
  | .settings => 14

/-- The first word of a table (R174). -/
def Table.first : Table → Nat
  | .loopCode => 0
  | .rule => 24
  | .zone => 216
  | .passage => 288
  | .settings => 352

/-- The number of positions of a table's entry (R26, R56, R59, R140, R175). -/
def Table.positions : Table → Nat
  | .loopCode => 8
  | .rule => 15
  | .zone => 8
  | .passage => 8
  | .settings => 46

/-- The loop code and rule tables lie in the protected region (R174). -/
def Table.isProtected : Table → Bool
  | .loopCode | .rule => true
  | .zone | .passage | .settings => false

/-- The word number of word w of entry e (R174). -/
def wordNumber (t : Table) (e w : Nat) : Nat := t.first + e * t.words + w

/-- Table, entry and word index of a word number (R174). -/
def wordPlace (n : Nat) : Table × Nat × Nat :=
  if n < 24 then (.loopCode, n / 3, n % 3)
  else if n < 216 then (.rule, (n - 24) / 3, (n - 24) % 3)
  else if n < 288 then (.zone, (n - 216) / 3, (n - 216) % 3)
  else if n < 352 then (.passage, (n - 288) / 2, (n - 288) % 2)
  else (.settings, 0, n - 352)

/-- The value of position p in a list of field values. -/
def valueAt (values : List Int) (p : Nat) : Int := values.getD p 0

/-- The bits of an entry: each field as its value less the lowest of its range (R174). -/
def packFields : List Field → List Int → Nat
  | f :: fs, v :: vs => ((v - f.low).toNat % 2 ^ f.width) * 2 ^ f.off + packFields fs vs
  | _, _ => 0

/-- The field values held in the bits of an entry (R174). -/
def unpackFields (fs : List Field) (bits : Nat) : List Int :=
  fs.map fun f => (bits / 2 ^ f.off % 2 ^ f.width : Nat) + f.low

/-- The data words of the bits of an entry. -/
def splitWords (count bits : Nat) : List (BitVec 32) :=
  (List.range count).map fun w => BitVec.ofNat 32 (bits / 2 ^ (32 * w))

/-- The bits of an entry's data words, word 0 first. -/
def joinWords : List (BitVec 32) → Nat
  | [] => 0
  | d :: ds => d.toNat + 2 ^ 32 * joinWords ds

/-- The data words of an entry with the given field values. -/
def entryWords (t : Table) (values : List Int) : List (BitVec 32) :=
  splitWords t.words (packFields (layout t (valueAt values 9).toNat) values)

/-- The field values of an entry with the given data words. The action of a rule stands in the three
bits from bit 64 (R174). -/
def entryFields (t : Table) (words : List (BitVec 32)) : List Int :=
  let bits := joinWords words
  unpackFields (layout t (bits / 2 ^ 64 % 8)) bits

/-- The power-on or default values of an entry's fields. -/
def defaultFields (t : Table) : List Int := (layout t 6).map (·.default)

/-! ### Field masks and carried values (R195) -/

/-- The mask names position p. -/
def named (mask : BitVec 64) (p : Nat) : Bool := mask.getLsbD p

/-- The mask of a write: bytes 2..9 of its body, bit 0 the least significant bit of byte 9. -/
def maskOf (body : List Byte) : BitVec 64 := BitVec.ofNat 64 (number ((body.drop 2).take 8))

/-- A mask naming every position of a table: a full-entry write (R195). -/
def fullMask (t : Table) (mask : BitVec 64) : Bool := mask.toNat == 2 ^ t.positions - 1

/-- A mask naming at least one position and none beyond the table's last (R195 check 1). -/
def maskOk (t : Table) (mask : BitVec 64) : Bool := mask != 0 && mask.toNat < 2 ^ t.positions

/-- The words of an entry that hold a named field: those a partial write affects. Every partial write of
a rule or of the settings affects all (R140, R175). -/
def touchedWords (t : Table) (mask : BitVec 64) : List Nat :=
  match t with
  | .rule | .settings => List.range t.words
  | .loopCode | .zone | .passage =>
    (List.range t.words).filter fun w =>
      ((layout t 6).zipIdx.any fun fp => named mask fp.2 && fp.1.off / 32 == w)

/-- The length of a table's value block (R195). -/
def blockLength : Table → Nat
  | .loopCode => 46
  | .rule => 24
  | .zone => 22
  | .passage => 16
  | .settings => 92

/-- The 32 chips of a carried code as bits: 1 for −1 (R174). -/
def chipBits : List Byte → Nat
  | [] => 0
  | c :: cs => (if c = 255 then 1 else 0) + 2 * chipBits cs

/-- Each chip carried is +1 or −1 (R27 check 5). -/
def chipsOk (chips : List Byte) : Bool := chips.all fun c => c == 1 || c == 255

/-- The pattern carried as two bits per loop from bit 0. -/
def patternBits : List Byte → Nat
  | [] => 0
  | c :: cs => c.toNat % 4 + 4 * patternBits cs

/-- Each pattern value carried is 0, 1 or 2 (R57 check 4). -/
def patternOk (pattern : List Byte) : Bool := pattern.all fun c => c.toNat ≤ 2

/-- The values carried in a run of 16-bit fields, signed where the field says so. -/
def carried16 : List Field → List Byte → List Int
  | [], _ => []
  | f :: fs, block =>
    (if f.signed then signed16 block 0 else (field16 block 0 : Int)) :: carried16 fs (block.drop 2)

/-- The values a value block carries, in position order (R195, section 10.5). Of a rule's zone mask only the 25
bits that R140 names are stored; `packFields` drops the others (log 38). -/
def carriedValues (t : Table) (block : List Byte) : List Int :=
  match t with
  | .loopCode =>
    [(field16 block 0 : Int), field16 block 2, chipBits ((block.drop 4).take 32), field16 block 36,
     field16 block 38, field16 block 40, field16 block 42, field16 block 44]
  | .rule =>
    [((byteAt block 0).toNat : Int), (byteAt block 1).toNat, (byteAt block 2).toNat, signed16 block 12,
     number ((block.drop 8).take 4), (byteAt block 7).toNat, (byteAt block 3).toNat, field16 block 14,
     (byteAt block 4).toNat, (byteAt block 5).toNat, field16 block 16, field16 block 18,
     field16 block 20, field16 block 22, (byteAt block 6).toNat]
  | .zone =>
    [(field16 block 0 : Int), patternBits ((block.drop 2).take 8), field16 block 10, field16 block 12,
     field16 block 14, field16 block 16, field16 block 18, field16 block 20]
  | .passage => carried16 passageLayout block
  | .settings => carried16 settingsLayout block

/-- A carried value as it is to be stored (R195): any value but 0 is yes, a tuning field is clamped. -/
def storedValue (f : Field) (v : Int) : Int :=
  match f.kind with
  | .yesNo => if v = 0 then 0 else 1
  | .structural => v
  | .tuning => clampInt f.low f.high v

/-- The values of a block, clamped (R28, R58, R60, R97, R141, R162, R195). -/
def clampedValues (t : Table) (block : List Byte) : List Int :=
  List.zipWith storedValue (layout t 6) (carriedValues t block)

/-- The value of position p lies in its field's range. -/
def inRange (t : Table) (values : List Int) (p : Nat) : Bool :=
  match (layout t 6)[p]? with
  | some f => decide (f.low ≤ valueAt values p) && decide (valueAt values p ≤ f.high)
  | none => false

/-- A structural field, if named, lies in its range. -/
def namedInRange (t : Table) (mask : BitVec 64) (values : List Int) (p : Nat) : Bool :=
  !named mask p || inRange t values p

/-- The values an entry has after a write: the carried value at each position named, the stored one
elsewhere. -/
def mergeValues (mask : BitVec 64) : Nat → List Int → List Int → List Int
  | p, s :: ss, c :: cs => (if named mask p then c else s) :: mergeValues mask (p + 1) ss cs
  | _, _, _ => []

/-- The mask names an action parameter of a rule (R140). -/
def namesParameter (mask : BitVec 64) : Bool :=
  named mask 10 || named mask 11 || named mask 12 || named mask 13 || named mask 14

/-- The values an entry has after a write. A rule write that names an action other than that stored, and
no parameters, stores the new action with its parameters at 0 (R141). -/
def entryAfter (t : Table) (mask : BitVec 64) (stored carried : List Int) : List Int :=
  let merged := mergeValues mask 0 stored carried
  if t = .rule ∧ named mask 9 ∧ valueAt carried 9 ≠ valueAt stored 9 ∧ ¬ namesParameter mask then
    merged.take 10 ++ [0, 0, 0, 0, 0]
  else merged

/-- The 32 chips of a stored code as sent: +1 or −1, one signed byte each (R195). -/
def codeBytes (code : Nat) : List Byte :=
  (List.range 32).map fun i => if code.testBit i then 255 else 1

/-- A stored pattern as sent: one byte per loop (R195). -/
def patternBytes (pattern : Nat) : List Byte :=
  (List.range 8).map fun k => byte (pattern / 4 ^ k % 4)

/-- A value block as stored (R194, R195): the answer data of a TABLE_READ. -/
def valueBlock (t : Table) (values : List Int) : List Byte :=
  match t with
  | .loopCode =>
    signed2 (valueAt values 0) ++ signed2 (valueAt values 1) ++ codeBytes (valueAt values 2).toNat ++
      (values.drop 3).flatMap signed2
  | .rule =>
    let b := fun p => byte (valueAt values p).toNat
    [b 0, b 1, b 2, b 6, b 8, b 9, b 14, b 5] ++ bytes4 (valueAt values 4).toNat ++
      signed2 (valueAt values 3) ++ signed2 (valueAt values 7) ++ signed2 (valueAt values 10) ++
      signed2 (valueAt values 11) ++ signed2 (valueAt values 12) ++ signed2 (valueAt values 13)
  | .zone =>
    signed2 (valueAt values 0) ++ patternBytes (valueAt values 1).toNat ++ (values.drop 2).flatMap signed2
  | .passage | .settings => values.flatMap signed2

/-! ### Entries as their readers use them -/

def handOf (v : Int) : Hand := if v = 0 then .left else .right

/-- A loop code entry from its field values (R26). -/
def loopEntryOf (v : List Int) : LoopEntry where
  valid := valueAt v 0 != 0
  role :=
    match (valueAt v 1).toNat with
    | 0 => .perimeter
    | 1 => .guide
    | 2 => .island
    | _ => .foreign
  code := BitVec.ofNat 32 (valueAt v 2).toNat
  inverted := valueAt v 3 != 0
  minStrength := (valueAt v 4).toNat
  peakRatio := (valueAt v 5).toNat
  confirm := (valueAt v 6).toNat
  lossLimit := (valueAt v 7).toNat

/-- A loop entry that is valid with a role other than FOREIGN. -/
def LoopEntry.own (e : LoopEntry) : Bool := e.valid && e.role != .foreign

/-- A zone entry (R56). -/
structure ZoneEntry where
  valid : Bool
  pattern : Nat
  speedCap : Nat
  bladeMax : Nat
  slopeStart : Int
  slopeLimit : Int
  rank : Nat
  homeLink : Option Nat
  deriving DecidableEq, Repr

/-- A zone entry from its field values. A home link of 32, or of a number that is no passage, is NONE
(R56, log 13). -/
def zoneEntryOf (v : List Int) : ZoneEntry where
  valid := valueAt v 0 != 0
  pattern := (valueAt v 1).toNat
  speedCap := (valueAt v 2).toNat
  bladeMax := (valueAt v 3).toNat
  slopeStart := valueAt v 4
  slopeLimit := valueAt v 5
  rank := (valueAt v 6).toNat
  homeLink := if (valueAt v 7).toNat < 32 then some (valueAt v 7).toNat else none

/-- The pattern value of a loop in a zone entry: 0 ANY, 1 MUST_IN, 2 MUST_OUT (R56). -/
def ZoneEntry.patternAt (e : ZoneEntry) (k : Nat) : Nat := e.pattern / 4 ^ k % 4

def passageEntryOf (v : List Int) : PassageEntry where
  valid := valueAt v 0 != 0
  zoneA := (valueAt v 1).toNat
  zoneB := (valueAt v 2).toNat
  guideLoop := (valueAt v 3).toNat
  interior := handOf (valueAt v 4)
  target := valueAt v 5
  speed := (valueAt v 6).toNat
  holdThrough := valueAt v 7 != 0

/-- The passage joins the two zones, in either order (R66). -/
def PassageEntry.joins (e : PassageEntry) (a b : Nat) : Bool :=
  (e.zoneA == a && e.zoneB == b) || (e.zoneA == b && e.zoneB == a)

/-- A settings value, by position (R175). -/
def settingOf (v : List Int) (p : Nat) : Nat := (valueAt v p).toNat

/-- The dock fields that a dock approach copies (R162, R168). -/
def dockParamsOf (v : List Int) : DockParams where
  loop := settingOf v 23
  interior := handOf (valueAt v 24)
  target := valueAt v 25
  approachLimit := settingOf v 27
  threshold := settingOf v 28
  settle := settingOf v 29
  backoff := settingOf v 30
  retries := settingOf v 31

/-! ### Rules as a walk uses them (R140 to R144) -/

/-- The compare of a rule holds for the value walked (R142). A stored compare code above 4 holds for none
(log 13). -/
def compareHolds (compare : Nat) (value threshold : Int) : Bool :=
  match compare with
  | 0 => decide (threshold < value)
  | 1 => decide (value < threshold)
  | 2 => value == threshold
  | 3 => decide (threshold < value.natAbs)
  | 4 => true
  | _ => false

/-- The mark of the walk's zone in a zone mask: bit 24 for UNKNOWN (R140, R174). -/
def zoneMark : Option Nat → Nat
  | some z => z
  | none => 24

/-- A rule matches a walk (R142). -/
def ruleMatches (v : List Int) (w : Walk) : Bool :=
  valueAt v 0 != 0 &&
  valueAt v 1 == w.request.source.code &&
  compareHolds (valueAt v 2).toNat w.request.value (valueAt v 3) &&
  (valueAt v 4).toNat.testBit (zoneMark w.zone) &&
  (valueAt v 5).toNat.testBit w.mode.code

/-- The action of a rule; NONE, and a stored code that is none, make no response (R140, log 13). -/
def actionOf (code : Nat) : Option Action :=
  match code with
  | 0 => some .pause
  | 1 => some .backTurn
  | 2 => some .slow
  | 3 => some .stopBlade
  | 4 => some .halt
  | 5 => some .home
  | _ => none

/-- The spin side of a BACK_TURN, resolved from the source walked (R144). A stored code above 2 is resolved as
AWAY (log 13). -/
def resolveSide (side : Nat) (source : Source) : Hand :=
  match side with
  | 1 => .left
  | 2 => .right
  | _ =>
    match source with
    | .bumpR | .rangeR => .left
    | _ => .right

/-- The response of the rule at an index, taken by a walk of a source (R143). -/
def responseOf (v : List Int) (index : Nat) (source : Source) (action : Action) : Response where
  rule := some index
  source := source
  action := action
  level := (valueAt v 7).toNat
  unconditional := valueAt v 8 != 0
  hold := (valueAt v 10).toNat
  cap := (valueAt v 11).toNat
  reverse := (valueAt v 12).toNat
  spin := (valueAt v 13).toNat
  side := resolveSide (valueAt v 14).toNat source

/-- The built-in response to OUTSIDE: HALT, level 15, unconditional, no rule index (R144). -/
def builtinResponse : Response where
  rule := none
  source := .outside
  action := .halt
  level := 15
  unconditional := true
  hold := 0
  cap := 0
  reverse := 0
  spin := 0
  side := .right

/-! ### Segments (R70, R71, R73) -/

end Sys2Proof.Machine

namespace Sys2Proof

open Machine

/-- The bytes of a segment body (section 10.5). -/
def SegmentBody.bytes (b : SegmentBody) : List Byte :=
  bytes2 b.id.toNat ++ [b.kind] ++ bytes2 b.speed.toNat ++ bytes2 b.length.toNat ++
    bytes2 b.ratio.toNat ++ [b.turnSide, b.followLoop, b.interior] ++ bytes2 b.target.toNat ++
    [b.bladeLevel, b.endType, b.endSubject, b.holdThrough]

end Sys2Proof

namespace Sys2Proof.Machine

/-- A segment body from its 18 bytes. -/
def segmentBodyOf (bs : List Byte) : SegmentBody where
  id := BitVec.ofNat 16 (field16 bs 0)
  kind := byteAt bs 2
  speed := BitVec.ofNat 16 (field16 bs 3)
  length := BitVec.ofNat 16 (field16 bs 5)
  ratio := BitVec.ofNat 16 (field16 bs 7)
  turnSide := byteAt bs 9
  followLoop := byteAt bs 10
  interior := byteAt bs 11
  target := BitVec.ofNat 16 (field16 bs 12)
  bladeLevel := byteAt bs 14
  endType := byteAt bs 15
  endSubject := byteAt bs 16
  holdThrough := byteAt bs 17

/-- The segment bodies of a PLAN_APPEND body after its count byte. -/
def segmentBodies : Nat → List Byte → List SegmentBody
  | 0, _ => []
  | n + 1, bs => segmentBodyOf (bs.take 18) :: segmentBodies n (bs.drop 18)

def handByte (b : Byte) : Hand := if b = 0 then .left else .right

end Sys2Proof.Machine

namespace Sys2Proof

open Machine

/-- The shape of a carried segment, its tuning fields clamped (R70, R71). -/
def SegmentBody.shape (b : SegmentBody) : Shape :=
  match b.kind.toNat with
  | 0 => .straight
  | 1 => .arc (saturate 256 b.ratio.toNat) (handByte b.turnSide)
  | 2 => .spin (handByte b.turnSide)
  | 3 => .follow b.followLoop.toNat (handByte b.interior) (clampInt (-200) 200 b.target.toInt)
  | _ => .pause

/-- The record of a carried segment (R70, R71). Its key is given at placement. -/
def SegmentBody.record (b : SegmentBody) : Segment where
  key := 0
  id := b.id
  shape := b.shape
  speed := b.speed.toInt
  length := b.length.toNat
  bladeLevel := saturate 3 b.bladeLevel.toNat
  endCondition :=
    match b.endType.toNat with
    | 1 => some (.untilCross b.endSubject.toNat)
    | 2 => some (.untilZone b.endSubject.toNat)
    | _ => none
  holdThrough := b.holdThrough != 0
  cut := false

/-- LEFT 0 or RIGHT 1. -/
def handOk (b : Byte) : Bool := b.toNat ≤ 1

/-- The checks of R73 on the segment at a position, in order; a check that needs no table read and passes
is left out. -/
def SegmentBody.checks (b : SegmentBody) (position : Nat) : List AppendCheck :=
  if 4 < b.kind.toNat then [.fail position]
  else
    (if (b.kind.toNat == 1 || b.kind.toNat == 2) && !handOk b.turnSide then [.fail position] else []) ++
    (if b.kind.toNat == 3 then
      if handOk b.interior && b.followLoop.toNat < 8 then [.loop position b.followLoop.toNat]
      else [.fail position]
     else []) ++
    match b.endType.toNat with
    | 0 => []
    | 1 => if b.endSubject.toNat < 8 then [.loop position b.endSubject.toNat] else [.fail position]
    | 2 => if b.endSubject.toNat < 24 then [.zone position b.endSubject.toNat] else [.fail position]
    | _ => [.fail position]

end Sys2Proof

namespace Sys2Proof.Machine

/-- The checks of R73 on carried segments, in carried order. Each check that names an entry reads it anew, also
where another check of the request has read it (log 41). -/
def appendChecks : Nat → List SegmentBody → List AppendCheck
  | _, [] => []
  | position, b :: bs => b.checks position ++ appendChecks (position + 1) bs

/-! ### Request bodies (R194, section 10.5) -/

def tableWriteBody (t : Table) (index : Byte) (mask : BitVec 64) (block : List Byte) : List Byte :=
  byte t.code :: index :: bytes4 (mask.toNat / 2 ^ 32) ++ bytes4 mask.toNat ++ block

def planAppendBody (segments : List SegmentBody) : List Byte :=
  byte segments.length :: segments.flatMap SegmentBody.bytes

end Sys2Proof.Machine
end

