-- ==== Sys2Proof/Machine/Flags.lean ====
section
/-! DEFINITION. The check bits of a word and their judgement (R176), the poisoned marks, and the
conditions that the blocks test: blade permission (R16), the deferral test (R147), the ready line (R192). -/

namespace Sys2Proof.Machine

/-! ### Check bits (R176) -/

/-- The column of each data bit: the 7-bit values with three bits set, in increasing order. -/
def columns : List (BitVec 7) :=
  [7, 11, 13, 14, 19, 21, 22, 25, 26, 28, 35, 37, 38, 41, 42, 44, 49, 50, 52, 56, 67, 69, 70, 73, 74, 76,
   81, 82, 84, 88, 97, 98]

/-- The exclusive-or of the columns of the data bits that are 1, from data bit d on. -/
def xorColumns (data : BitVec 32) : Nat → List (BitVec 7) → BitVec 7
  | _, [] => 0
  | d, c :: cs => (if data.getLsbD d then c else 0) ^^^ xorColumns data (d + 1) cs

/-- The check bits generated from the data bits of a word. -/
def generateCheck (data : BitVec 32) : BitVec 7 := xorColumns data 0 columns

/-- A word with the check bits generated from its data. -/
def generatedWord (data : BitVec 32) : StoredWord := ⟨data, generateCheck data⟩

/-- The syndrome of a stored word. -/
def StoredWord.syndrome (w : StoredWord) : BitVec 7 := w.check ^^^ generateCheck w.data

/-- What a syndrome is judged to be, with the corrected word. -/
inductive Judgement
  | clean (data : BitVec 32)
  | single (data : BitVec 32)
  | uncorrectable
  deriving DecidableEq, Repr

/-- The syndromes of a single error in a check bit. -/
def checkBitSyndromes : List (BitVec 7) := [1, 2, 4, 8, 16, 32, 64]

/-- The judgement of a word (R176). -/
def StoredWord.judge (w : StoredWord) : Judgement :=
  if w.syndrome = 0 then .clean w.data
  else if checkBitSyndromes.contains w.syndrome then .single w.data
  else if columns.contains w.syndrome then
    .single (w.data ^^^ BitVec.twoPow 32 (columns.idxOf w.syndrome))
  else .uncorrectable

/-! ### Poisoned marks (R183) -/

/-- The poisoned mark of an entry; a protected entry has none. -/
def Poisoned.get (m : Poisoned) (t : Table) (i : Nat) : Bool :=
  match t with
  | .loopCode | .rule => false
  | .zone => m.zones.getLsbD i
  | .passage => m.passages.getLsbD i
  | .settings => m.settings

/-- Set or clear the poisoned mark of an entry. -/
def Poisoned.put (m : Poisoned) (t : Table) (i : Nat) (b : Bool) : Poisoned :=
  match t with
  | .loopCode | .rule => m
  | .zone =>
    { m with zones := if b then m.zones ||| BitVec.twoPow 24 i else m.zones &&& ~~~(BitVec.twoPow 24 i) }
  | .passage =>
    { m with
      passages := if b then m.passages ||| BitVec.twoPow 32 i else m.passages &&& ~~~(BitVec.twoPow 32 i) }
  | .settings => { m with settings := b }

/-! ### Conditions -/

/-- The mode is RUN, or MANEUVER with resume mode RUN: planned motion is allowed (R76, R16). -/
def Fcu.planned (f : Fcu) : Bool := f.mode == .run || (f.mode == .maneuver && f.resume == some .run)

/-- The mode is HOMING, or MANEUVER with resume mode HOMING. -/
def Fcu.homing (f : Fcu) : Bool := f.mode == .homing || (f.mode == .maneuver && f.resume == some .homing)

/-- The mode is DOCKING, or MANEUVER with resume mode DOCKING. -/
def Fcu.docking (f : Fcu) : Bool := f.mode == .docking || (f.mode == .maneuver && f.resume == some .docking)

/-- The modes in which a write to the protected region is taken (R178). -/
def Mode.permitsProtected (m : Mode) : Bool := !m.moving

/-- The active segment (R76). -/
def Sq.activeSegment (q : Sq) : Option Segment := if q.active then q.queue.head? else none

/-- A PAUSE or a BACK_TURN is a maneuver. -/
def Action.maneuver : Action → Bool
  | .pause | .backTurn => true
  | .slow | .stopBlade | .halt | .home => false

/-- The hazard level: the level of the active response, 0 when none is active (R146). -/
def Hre.level (h : Hre) : Nat :=
  match h.active with
  | some a => a.response.level
  | none => 0

/-- Condition 2 of R16: there is an active segment and its blade level is greater than 0. -/
def Part.segmentWantsBlade (p : Part) : Bool :=
  match p.sq.activeSegment with
  | some g => 0 < g.bladeLevel
  | none => false

/-- Condition 3 of R16. -/
def Part.zoneAllowsBlade (p : Part) : Bool :=
  match p.ltr.zone with
  | some z => !p.tst.poisoned.get .zone z && 1 ≤ p.fcu.zoneBladeMax
  | none => false

/-- Conditions 4 and 5 of R16. -/
def Part.responseAllowsBlade (p : Part) : Bool :=
  match p.hre.active with
  | some a => a.response.action != .stopBlade && a.response.action != .halt && !a.response.unconditional
  | none => true

/-- Blade permission as the FCU decides it (R16). -/
def Part.bladePermitted (p : Part) : Bool :=
  p.fcu.planned && p.segmentWantsBlade && p.zoneAllowsBlade && p.responseAllowsBlade

/-- The level to send (R16): the lower of the active segment's level and the zone's maximum. -/
def Part.bladeLevel (p : Part) : Nat :=
  match p.sq.activeSegment with
  | some g => min g.bladeLevel p.fcu.zoneBladeMax
  | none => 0

/-- The deferral test (R147). A segment that a BACK_TURN has marked for cutting holds through no more (R87,
log 33). -/
def Part.deferralTest (p : Part) : Bool :=
  (p.fcu.planned && (match p.sq.activeSegment with
    | some g => g.holdThrough && !g.cut
    | none => false)) ||
  (p.fcu.homing && (match p.rtu.leg with
    | some l => l.follow && l.holdThrough
    | none => false)) ||
  p.rtu.finalApproach

/-- The ready line is high (R192). -/
def Plp.ready (l : Plp) : Bool := l.rx.length < Config.receivePlaces

/-- A loop stands in a CROSS state (R51). -/
def Ltr.crossAt (l : Ltr) (k : Nat) : Bool :=
  match loopIndices[k]? with
  | some i => (l.tracks.get i).combined.cross
  | none => false

end Sys2Proof.Machine
end

