-- ==== Sys2Proof/Machine/Ops.lean ====
section
/-! DEFINITION. The operations every block shares: the table memory (R174), handing an entry to the
Coalescer and emission (R197, R198), requests to the store (R177), and walk requests (R139). -/

namespace Sys2Proof.Machine

/-! ### Table memory (R174) -/

/-- What an unlisted word reads as: the power-on value of its fields with generated check bits (R174). -/
def powerOnWord (n : Nat) : StoredWord :=
  let place := wordPlace n
  generatedWord ((entryWords place.1 (defaultFields place.1)).getD place.2.2 0)

/-- The word of a number. -/
def Memory.read (m : Memory) (n : Nat) : StoredWord := (m.lookup n).getD (powerOnWord n)

/-- The list without word n. -/
def Memory.erase : Memory → Nat → Memory
  | [], _ => []
  | c :: cs, n => if c.1 = n then Memory.erase cs n else c :: Memory.erase cs n

/-- The list with word n put in its place, before the first higher number. -/
def Memory.insert : Memory → Nat → StoredWord → Memory
  | [], n, w => [(n, w)]
  | c :: cs, n, w => if n < c.1 then (n, w) :: c :: cs else c :: Memory.insert cs n w

/-- Write a word; writing the power-on value removes the entry, so that equal memories are equal data. -/
def Memory.write (m : Memory) (n : Nat) (w : StoredWord) : Memory :=
  if w = powerOnWord n then m.erase n else (m.erase n).insert n w

/-- The word numbers are strictly rising above a bound, each within the store, and no word listed has
its power-on value. -/
def Memory.wfFrom : Nat → Memory → Bool
  | _, [] => true
  | low, (n, w) :: cs =>
    decide (low ≤ n) && decide (n < Config.storeWords) && decide (w ≠ powerOnWord n) &&
      Memory.wfFrom (n + 1) cs

/-- The canonical form of the table memory. -/
def Memory.wf (m : Memory) : Bool := Memory.wfFrom 0 m

/-- The words of an entry, word 0 first. -/
def Memory.readEntry (m : Memory) (t : Table) (i : Nat) : List StoredWord :=
  (List.range t.words).map fun w => m.read (wordNumber t i w)

/-- Write words of an entry, each given by its word index. -/
def Memory.writeEntry (m : Memory) (t : Table) (i : Nat) : List (Nat × StoredWord) → Memory
  | [] => m
  | (w, word) :: rest => Memory.writeEntry (m.write (wordNumber t i w) word) t i rest

/-! ### Notice entries (R197, R198) -/

/-- The class's previous NOTICE still waits in the transmit list (R198). -/
def Plp.noticeWaits (l : Plp) (c : NoticeClass) : Bool :=
  l.tx.any fun f =>
    match f with
    | .notice c' _ _ => c' == c
    | .answer .. | .started _ => false

/-- Empty a class's buffer: its entries leave it, both timers stop and the gap mark clears (R198, R199). -/
def ClassBuffer.emptied (b : ClassBuffer) : ClassBuffer :=
  { b with entries := [], holdTimer := none, quietTimer := none, gap := false }

/-- A class emits: one NOTICE with all its pending entries, oldest first (R198). With nothing pending no
frame is made (R199). -/
def Part.emit (c : NoticeClass) (p : Part) : Part :=
  let b := p.nco.classes.get c
  if b.entries.isEmpty then p
  else
    { p with
      nco.classes := p.nco.classes.set c b.emptied
      plp.tx := p.plp.tx ++ [.notice c b.gap b.entries] }

/-- A cause of emission: the class emits, or its emit-due mark is set while its previous NOTICE waits. -/
def Part.emitCause (c : NoticeClass) (p : Part) : Part :=
  if p.plp.noticeWaits c then
    { p with nco.classes := p.nco.classes.set c { p.nco.classes.get c with due := true } }
  else p.emit c

/-- An entry joins the tail of its class's buffer; a full buffer loses its oldest entry and sets the gap
mark; the timers start (R197). A quiet timer that has run out is not restarted: its expiry, taken after the
entry, emits the entry with the others (R198). -/
def ClassBuffer.join (b : ClassBuffer) (e : Entry) : ClassBuffer :=
  let full := Config.classPlaces ≤ b.entries.length
  { b with
    entries := (if full then b.entries.drop 1 else b.entries) ++ [e]
    gap := b.gap || full
    holdTimer := if b.entries.isEmpty then Timer.startUnlessZero b.holdLimit else b.holdTimer
    quietTimer := if b.quietTimer.due then b.quietTimer else Timer.startUnlessZero b.quietLimit }

/-- Hand an entry to the Coalescer and test it for emission (R197, R198). -/
def Part.addEntryUrgent (urgent : Bool) (kind : EntryKind) (subject value : Nat) (p : Part) : Part :=
  let c := kind.noticeClass
  let b := (p.nco.classes.get c).join ⟨kind, subject, value, p.clock⟩
  let p' := { p with nco.classes := p.nco.classes.set c b }
  if urgent || b.batch ≤ b.entries.length || Config.classPlaces ≤ b.entries.length then p'.emitCause c
  else p'

/-- Hand an entry that is not urgent to the Coalescer. -/
def Part.addEntry (kind : EntryKind) (subject value : Nat) (p : Part) : Part :=
  p.addEntryUrgent false kind subject value

/-- Add a MODE_CHANGED entry for the mode and stop cause as they stand; urgent for HALTED and SAFE
(R15, R198). -/
def Part.addModeChanged (p : Part) : Part :=
  p.addEntryUrgent (p.fcu.mode == .halted || p.fcu.mode == .safe) .modeChanged p.fcu.mode.code
    (p.fcu.stopCause.code + 256 * p.fcu.stopCause.rule)

/-- Add the HAZARD entry of an outcome of a response (R156, R198). -/
def Part.addHazard (outcome : EntryKind) (r : Response) (p : Part) : Part :=
  p.addEntryUrgent (r.unconditional || p.nco.urgentLevel ≤ r.level) outcome (r.rule.getD 255)
    (r.source.code + 256 * r.action.code + 4096 * r.level + 65536 * (if r.unconditional then 1 else 0))

/-! ### Requests to the store (R177) -/

/-- The grant class of a request (R177). -/
def Request.grantClass (q : Request) : Nat :=
  match q.owner with
  | .walk => 1
  | .correlator => 2
  | .zoneEval | .crossing => 3
  | .shaper | .planning =>
    match q.kind with
    | .entryRead .settings _ => 4
    | .entryRead _ _ | .fullWrite .. | .partialWrite .. | .scrub _ => 3
  | .copies | .scrubCopy => 4
  | .planner => 5
  | .scrub => 6

/-- A request joins the waiting requests. -/
def Part.request (owner : Owner) (kind : AccessKind) (reader : Reader) (p : Part) : Part :=
  { p with tst.waiting := p.tst.waiting ++ [⟨owner, kind, reader⟩], agenda.store := true }

/-- Ask for an entry read. -/
def Part.requestRead (owner : Owner) (t : Table) (i : Nat) (reader : Reader) (p : Part) : Part :=
  p.request owner (.entryRead t i) reader

/-- An operation is abandoned: its waiting request is withdrawn, and the result of its access in
progress is discarded (R177). -/
def Part.withdraw (owner : Owner) (p : Part) : Part :=
  { p with
    tst.waiting := p.tst.waiting.filter fun q => q.owner != owner
    tst.current := p.tst.current.map fun a =>
      if a.request.owner = owner then { a with discard := true } else a }

/-! ### Walk requests (R139) -/

/-- A request joins the walk queue: its value replaces that of a waiting request of its pair in place,
else it joins the tail. -/
def joinWalkQueue (r : WalkRequest) : List WalkRequest → List WalkRequest
  | [] => [r]
  | q :: qs =>
    if q.source = r.source ∧ q.subject = r.subject then { q with value := r.value } :: qs
    else q :: joinWalkQueue r qs

/-- Make a walk request. -/
def Part.requestWalk (source : Source) (subject : Nat) (value : Int) (p : Part) : Part :=
  { p with hre.queue := joinWalkQueue ⟨source, subject, value⟩ p.hre.queue, agenda.walk := true }

/-! ### Counters and the agenda -/

/-- The next number that tells one source of motion from another (R91). -/
def Part.takeSerial (p : Part) : Part := { p with serial := p.serial + 1 }

/-- A change of mode or resume mode: the blade permission, the deferral test, the STARVED test and the
Return Unit's beginnings are made again in the event (R16, R147, R86, R163). -/
def Part.markMode (p : Part) : Part :=
  { p with
    agenda.blade := true
    agenda.deferral := true
    agenda.source := true
    agenda.starved := true
    agenda.returning := true }

/-- A source of motion began, ended or changed its phase, or the final approach changed (R16, R90, R147). -/
def Part.markMotion (p : Part) : Part :=
  { p with agenda.blade := true, agenda.deferral := true, agenda.source := true }

end Sys2Proof.Machine
end

