-- ==== Sys2Proof/Machine/Queue.lean ====
section
/-! DEFINITION. The segment queue: activation, endings, cuts, flushes, placement, and the REFILL and
STARVED tests (R74 to R86). -/

namespace Sys2Proof.Machine

/-- The outcome codes of an ending (R79). -/
inductive Ending
  | completed
  | cutShort
  | abandoned
  deriving DecidableEq, Repr

def Ending.code : Ending → Nat
  | .completed => 0
  | .cutShort => 1
  | .abandoned => 2

/-- Add the SEG_DONE entry of an ending (R79). -/
def Part.addSegDone (g : Segment) (e : Ending) (distance : Nat) (p : Part) : Part :=
  p.addEntry .segDone g.id.toNat (saturate 65535 distance + 65536 * e.code)

/-- The head ends: its record leaves, its entry is added, the end is announced (R79). -/
def Part.endHead (e : Ending) (distance : Nat) (p : Part) : Part :=
  match p.sq.queue with
  | [] => p
  | g :: rest =>
    ({ p with sq.queue := rest, sq.active := false, agenda.removed := true, agenda.starved := true }
      |>.addSegDone g e distance).markMotion

/-- The head becomes active where the mode allows; markers complete at once (R76, R77). The fuel is the
number of records. -/
def Part.activateFrom : Nat → Part → Part
  | 0, p => p
  | fuel + 1, p =>
    match p.sq.queue with
    | [] => p
    | g :: _ =>
      if p.fcu.planned && !p.sq.active then
        let p' := { p with sq.active := true, msh.progress := 0, fcu.armRefused := false }.markMotion
        if g.length = 0 ∧ g.endCondition = none then (p'.endHead .completed 0).activateFrom fuel else p'
      else p

def Part.activateHead (p : Part) : Part := p.activateFrom p.sq.queue.length

/-- The active segment is COMPLETED with its progress as distance done, and the next head is activated
(R78). -/
def Part.completeActive (p : Part) : Part :=
  if p.sq.active then (p.endHead .completed p.msh.progress).activateHead else p

/-- Set the cut mark of the active segment (R80). -/
def Part.markCut (p : Part) : Part :=
  if p.sq.active then
    match p.sq.queue with
    | [] => p
    | g :: rest => { p with sq.queue := { g with cut := true } :: rest }
  else p

/-- The end of a BACK_TURN cuts the marked segment and activates the next head (R80). -/
def Part.cutMarked (p : Part) : Part :=
  match p.sq.activeSegment with
  | some g => if g.cut then (p.endHead .cutShort p.msh.progress).activateHead else p
  | none => p

/-- The waiting records end ABANDONED, in queue order (R82). The fuel is the number of records. -/
def Part.abandonAll : Nat → Part → Part
  | 0, p => p
  | fuel + 1, p => (p.endHead .abandoned 0).abandonAll fuel

/-- A flush: the segment in progress ends CUT_SHORT, the waiting records ABANDONED (R82). -/
def Part.flush (p : Part) : Part :=
  let p' := if p.sq.active then p.endHead .cutShort p.msh.progress else p
  p'.abandonAll p'.sq.queue.length

/-- Records with their keys, from a first key on. -/
def keyed : Nat → List Segment → List Segment
  | _, [] => []
  | k, g :: gs => { g with key := k } :: keyed (k + 1) gs

/-- The placement of segments (R74). -/
def Part.place (segments : List Segment) (p : Part) : Part :=
  let queue := p.sq.queue ++ keyed p.serial segments
  { p with
    sq.queue := queue
    sq.refillArmed := p.sq.refillArmed || p.sq.refillMark < queue.length
    sq.starvedArmed := true
    serial := p.serial + segments.length
    agenda.starved := true }.activateHead

/-- The REFILL test at the end of an event that removed records (R85). -/
def Part.refillTest (p : Part) : Part :=
  if p.sq.refillArmed && p.sq.queue.length ≤ p.sq.refillMark then
    { p with sq.refillArmed := false }.addEntry .refill p.sq.queue.length
      (Config.queuePlaces - p.sq.queue.length)
  else p

/-- The STARVED test at the end of an event (R86). -/
def Part.starvedTest (p : Part) : Part :=
  if p.sq.starvedArmed && p.sq.queue.isEmpty && p.fcu.planned then
    { p with sq.starvedArmed := false }.addEntry .starved 0 0
  else p

end Sys2Proof.Machine
end

