-- ==== Sys2Proof/Machine/Bus.lean ====
section
/-! DEFINITION. Requests to the drive bus master: the waiting slots and what a stop does to the exchange
in hand (R120, R122 to R124), the reports of an arm's end to the FCU (R17, R18, R130), and the FCU's
decision of blade permission (R16). -/

namespace Sys2Proof.Machine

/-- Change a node record. -/
def Part.mapNode (n : Fin 3) (f : Node → Node) (p : Part) : Part :=
  { p with dbm.nodes := p.dbm.nodes.set n (f (p.dbm.nodes.get n)) }

/-- A node record. -/
def Part.node (p : Part) (n : Fin 3) : Node := p.dbm.nodes.get n

/-- The node is LOST: it is sent nothing more, and a transfer asked for it is discarded (R120). -/
def Node.isLost (d : Node) : Bool := d.standing == .lost

/-- Offers or the bus may have changed: the arbiter looks again at the end of the event (R126). -/
def Part.markBus (p : Part) : Part := { p with agenda.bus := true }

/-- A node's state becomes the given one; a change adds a NODE_STATE entry (R112). -/
def Part.setStanding (n : Fin 3) (st : NodeStanding) (p : Part) : Part :=
  if (p.node n).standing = st then p
  else (p.mapNode n fun d => { d with standing := st }).addEntry .nodeState n.val st.code

/-- An exchange of the node other than a report grant is on the wire. -/
def Dbm.onWire (d : Dbm) (n : Fin 3) : Bool :=
  match d.bus with
  | .wire m false _ _ => m == n
  | .wire _ true _ _ | .free | .reserved => false

/-- The exchange in hand ends with no further try. When the node's hold concerns it, the node stays
HOLDING and its hold start becomes absent; a hold of the report grant goes on (R117, log 28). -/
def Node.dropExchange (d : Node) : Node :=
  { d with
    inHand := none
    suspended := false
    superseded := false
    hold := d.hold.filter (·.grant) }

/-- The exchange in hand is over, done or refused. -/
def Node.endExchange (d : Node) : Node := { d with inHand := none, suspended := false, superseded := false }

/-- Put a setpoint in a wheel's slot (R122). -/
def Part.askSetpoint (n : Fin 3) (speed : Int) (lookahead : Option Int) (p : Part) : Part :=
  if (p.node n).isLost then p
  else (p.mapNode n fun d => { d with slot.setpoint := some (speed, lookahead) }).markBus

/-- What a stop asked for a wheel does to its exchange in hand (R124). -/
def Node.stopExchange (d : Node) (onWire : Bool) : Node :=
  match d.inHand with
  | some ⟨.setpoint _ _, _, _, _⟩ => if onWire then { d with superseded := true } else d.dropExchange
  | _ => d

/-- Put a STOP in a wheel's slot (R122, R124). -/
def Part.askStop (n : Fin 3) (p : Part) : Part :=
  if (p.node n).isLost then p
  else
    (p.mapNode n fun d => { d with slot.stop := true, slot.setpoint := none }.stopExchange (p.dbm.onWire n))
      |>.markBus

/-- Put an arm in the blade's slot (R123). -/
def Part.askArm (level : Nat) (p : Part) : Part :=
  if (p.node 2).isLost then p
  else (p.mapNode 2 fun d => { d with slot.arm := some level }).markBus

/-- Ask for a BLADE_STATUS: the status wanted mark (R123). -/
def Part.askStatus (p : Part) : Part :=
  if (p.node 2).isLost then p else (p.mapNode 2 fun d => { d with statusWanted := true }).markBus

/-- An arm ended without a refusal before its run, replaced or at the midpoint: ARMING goes to OFF and
SPINNING stays (R17, R18, R130); so do OFF and STOPPING (log 40). -/
def Part.armLapsed (p : Part) : Part :=
  if p.fcu.blade = .arming then { p with fcu.blade := .off, agenda.blade := true } else p

/-- The arm in the blade's slot is replaced by a BLADE_STOP (R123). -/
def Part.replaceArm (p : Part) : Part :=
  match (p.node 2).slot.arm with
  | some _ => (p.mapNode 2 fun d => { d with slot.arm := none }).armLapsed
  | none => p

/-- What a BLADE_STOP does to the blade's exchange in hand (R124). -/
def Part.stopBladeExchange (p : Part) : Part :=
  match (p.node 2).inHand with
  | some ⟨.guardRead _, _, _, _⟩ =>
    if p.dbm.onWire 2 then p
    else { p.mapNode 2 Node.dropExchange with dbm.interlock := .none }.armLapsed
  | some ⟨.bladeStatus, _, _, _⟩ =>
    if p.dbm.onWire 2 then p else p.mapNode 2 fun d => { d.dropExchange with statusWanted := true }
  | _ => p

/-- Put a BLADE_STOP in the blade's slot (R123, R124). -/
def Part.askBladeStop (p : Part) : Part :=
  if (p.node 2).isLost then p
  else (p.replaceArm.mapNode 2 fun d => { d with slot.stop := true }).stopBladeExchange.markBus

/-- An arm was refused: from ARMING the blade is OFF with the arm-refused mark; from SPINNING the mark is
set for the next OFF and a BLADE_STOP is asked for (R17, R18). In OFF and STOPPING, for which the tables have no
row, the report changes nothing (log 40). -/
def Part.armRefused (p : Part) : Part :=
  match p.fcu.blade with
  | .arming => { p with fcu.blade := .off, fcu.armRefused := true, agenda.blade := true }
  | .spinning _ => { p with fcu.armRefused := true }.askBladeStop
  | .off | .stopping => p

/-- A BLADE_RUN was accepted with its level (R17, R18). In OFF and STOPPING the report changes nothing
(log 40). -/
def Part.runAccepted (level : Nat) (p : Part) : Part :=
  match p.fcu.blade with
  | .arming =>
    let p' := { p with fcu.blade := .spinning level }
    if p.fcu.permission && p.fcu.levelToSend != level then p'.askArm p.fcu.levelToSend else p'
  | .spinning _ => { p with fcu.blade := .spinning level }
  | .off | .stopping => p

/-- A BLADE_STOP was accepted (R17, R18). In STOPPING it changes nothing (log 40). -/
def Part.bladeStopAccepted (p : Part) : Part :=
  match p.fcu.blade with
  | .spinning _ => { p with fcu.blade := .stopping }.askStatus
  | .off | .arming | .stopping => p

/-- A BLADE_STATUS was accepted with the given rpm (R18). -/
def Part.bladeStatusAccepted (rpm : BitVec 16) (p : Part) : Part :=
  match p.fcu.blade with
  | .stopping => if rpm = 0 then { p with fcu.blade := .off, agenda.blade := true } else p.askStatus
  | .off | .arming | .spinning _ => p

/-- The FCU decides permission and acts on it (R16 to R18). The level to send is kept while permission is
no (log 15). -/
def Part.decideBlade (p : Part) : Part :=
  let now := p.bladePermitted
  let level := p.bladeLevel
  let changed := p.fcu.permission && level != p.fcu.levelToSend
  let p' := { p with
    fcu.permission := now
    fcu.levelToSend := if now then level else p.fcu.levelToSend }
  match p.fcu.blade with
  | .off => if now && !p.fcu.armRefused then { p' with fcu.blade := .arming }.askArm level else p'
  | .arming => if p.fcu.permission && !now then p'.askBladeStop else p'
  | .spinning _ =>
    if p.fcu.permission && !now then p'.askBladeStop
    else if now && changed then p'.askArm level
    else p'
  | .stopping => p'

end Sys2Proof.Machine
end

