-- ==== Sys2Proof/Machine/Modes.lean ====
section
/-! DEFINITION. The changes of mode with what each does in its event: the stops of R13 and R102, the
clearing of responses (R149), what the Return Unit drops (R167, R171), the dock approach (R168, R170),
and the entries into each mode (R6 to R14). -/

namespace Sys2Proof.Machine

/-- The mode becomes the given one, with its MODE_CHANGED entry (R15). -/
def Part.setMode (m : Mode) (resume : Option Resume) (p : Part) : Part :=
  let p' := { p with fcu.mode := m, fcu.resume := resume }
  if p.fcu.mode = m then p' else p'.addModeChanged.markMode

/-- A period computation in progress will pass nothing (R90). -/
def Computation.stop (c : Computation) : Computation := { c with stopped := true }

/-- The shaper's own part of a stop (R102); a period computation in progress passes nothing (R90). -/
def Msh.stop (m : Msh) : Msh :=
  { m with
    previousLeft := 0
    previousRight := 0
    errorMemory := none
    computation := m.computation.map Computation.stop }

/-- The stops of R13: a STOP for each wheel, a BLADE_STOP, the shaper's stop, permission no. -/
def Part.stopMotion (p : Part) : Part :=
  { { p with msh := p.msh.stop, fcu.permission := false } with agenda.blade := true }
    |>.askStop 0 |>.askStop 1 |>.askBladeStop

/-- The stop of a PAUSE response (R102). -/
def Part.pauseStop (p : Part) : Part := { p with msh := p.msh.stop }.askStop 0 |>.askStop 1

/-- The hazard level and its mirror follow the active response (R3, R146). -/
def Part.mirrorLevel (p : Part) : Part :=
  { p with fcu.hazardLevel := p.hre.level, agenda.blade := true }

/-- The active response ends and is reported ENDED; its effects elsewhere are the caller's (R154). With it the
source of motion may change (R91). -/
def Part.endActive (p : Part) : Part :=
  match p.hre.active with
  | some a =>
    ({ p with hre.active := none, agenda.deferral := true, agenda.source := true }.addHazard .ended a.response)
      |>.mirrorLevel
  | none => p

/-- The pending response is reported DROPPED and the slot is emptied. -/
def Part.dropPending (p : Part) : Part :=
  match p.hre.pending with
  | some r => { p with hre.pending := none }.addHazard .dropped r
  | none => p

/-- The engine clears its responses (R149). -/
def Part.clearResponses (p : Part) : Part := p.endActive.dropPending

/-- The Return Unit's leg and planning are dropped and the plan due mark cleared (R167). -/
def Part.dropHoming (p : Part) : Part :=
  { p.withdraw .planning with
    rtu.leg := none
    rtu.planning := none
    rtu.planDue := false }.markMotion

/-- Dock activity and final approach end (R171). -/
def Part.dropDocking (p : Part) : Part :=
  { p with rtu.activity := .none, rtu.finalApproach := false }.markMotion

/-- The entry into DOCKED clears the stack with its flag, the crossing list and the counts (R171). -/
def Rtu.docked (r : Rtu) : Rtu :=
  { r with stack := [], overflow := false, crossings := [], attempts := 0, settle := 0 }

/-- An entry into IDLE, HALTED, SAFE or DOCKED with its stop cause, if it writes one (R2, R13). The queue
is flushed where `flush` says so (R83). -/
def Part.enterStop (m : Mode) (cause : Option StopCause) (flush : Bool) (p : Part) : Part :=
  let p1 := { p with fcu.stopCause := cause.getD p.fcu.stopCause }.setMode m none
  let p2 := p1.dropHoming.dropDocking
  let p3 := if m = .docked then { p2 with rtu := p2.rtu.docked } else p2
  let p4 := p3.stopMotion
  (if flush then p4.flush else p4).clearResponses

/-- An entry into SAFE (R14); in SAFE already, a further cause changes nothing (R2). -/
def Part.enterSafe (cause : StopCause) (p : Part) : Part :=
  if p.fcu.mode = .safe then p else p.enterStop .safe (some cause) true

/-- Homing has failed: HALTED with HOME_FAILED (R12, R164). -/
def Part.homingFailed (p : Part) : Part :=
  if p.fcu.mode = .homing then p.enterStop .halted (some .homeFailed) true else p

/-- Dock attempts are exhausted: HALTED with DOCK_FAILED (R12, R170, R171). -/
def Part.dockFailed (p : Part) : Part :=
  if p.fcu.mode = .docking then p.enterStop .halted (some .dockFailed) true else p

/-- Contact is confirmed: DOCKED (R12, R169). -/
def Part.contactConfirmed (p : Part) : Part :=
  if p.fcu.mode = .docking then p.enterStop .docked none false else p

/-- Contact is lost: CONTACT_LOST and IDLE (R12, R172). -/
def Part.contactLost (voltage : Nat) (p : Part) : Part :=
  if p.fcu.mode = .docked then
    ({ p with rtu.settle := 0 }.addEntry .contactLost 0 voltage).enterStop .idle none false
  else p

/-- A dock approach starts (R168). -/
def Part.startApproach (p : Part) : Part :=
  { p with
    rtu.params := p.rtu.copies
    rtu.activity := .approach
    rtu.distance := 0
    rtu.finalApproach := false
    rtu.settle := 0
    rtu.dockKey := p.serial }.takeSerial.markMotion

/-- A dock attempt has failed (R170). -/
def Part.attemptFailed (cause : Nat) (p : Part) : Part :=
  ({ p with
    rtu.finalApproach := false
    rtu.settle := 0
    rtu.attempts := p.rtu.attempts + 1
    rtu.activity := .backoff
    rtu.distance := 0
    rtu.dockKey := p.serial }.addEntry .dockAttempt (p.rtu.attempts + 1) cause).takeSerial.markMotion

/-- The end of a backoff: a new approach, or exhausted attempts (R170). -/
def Part.backoffEnded (p : Part) : Part :=
  if p.rtu.attempts < p.rtu.params.retries then p.startApproach else p.dockFailed

/-- The entry into HOMING: the queue is flushed and a leg is due (R7, R11, R163). -/
def Part.enterHoming (p : Part) : Part :=
  { p.setMode .homing none with rtu.planDue := true }.flush

/-- Dock zone reached: DOCKING, with the attempt count 0 and an approach started (R12, R167, R168). -/
def Part.enterDocking (p : Part) : Part :=
  if p.fcu.mode = .homing then
    { (p.setMode .docking none).dropHoming with rtu.attempts := 0 }.startApproach
  else p

/-- MODE RUN taken: the mode, the STARVED flag, and the head (R6, R86). -/
def Part.enterRun (p : Part) : Part :=
  { p.setMode .run none with sq.starvedArmed := true, agenda.starved := true }.activateHead

/-- A maneuver that becomes active suspends the leg or the approach: a planning in progress is abandoned,
final approach ends and the settle count becomes 0 (R163, R171). -/
def Part.suspendReturn (resume : Resume) (p : Part) : Part :=
  match resume with
  | .run => p
  | .homing => { p.withdraw .planning with rtu.planning := none }.markMotion
  | .docking => { p with rtu.finalApproach := false, rtu.settle := 0 }.markMotion

/-- A maneuver becomes active: MANEUVER with the mode left as resume mode; in MANEUVER already, nothing
(R10). -/
def Part.enterManeuver (p : Part) : Part :=
  match p.fcu.mode with
  | .run => (p.setMode .maneuver (some .run)).suspendReturn .run
  | .homing => (p.setMode .maneuver (some .homing)).suspendReturn .homing
  | .docking => (p.setMode .maneuver (some .docking)).suspendReturn .docking
  | .idle | .maneuver | .docked | .halted | .safe => p

/-- The leg is dropped and the next is due (R166, R167). -/
def Part.endLeg (p : Part) : Part :=
  { p with rtu.leg := none, rtu.planDue := true, agenda.returning := true }.markMotion

/-- The leg begins, or begins again, in ACQUIRE with distance 0, or in FOLLOW where its guide loop stands in
a CROSS state (R165, R167). -/
def Part.beginLeg (l : Leg) (p : Part) : Part :=
  { p with rtu.leg := some { l with follow := p.ltr.crossAt l.guideLoop, distance := 0 } }.markMotion

/-- The zone is known and is not the leg's start zone (R166). -/
def Part.leftStart (l : Leg) (p : Part) : Bool :=
  match p.ltr.zone with
  | some z => z != l.start
  | none => false

/-- What the Return Unit does when a maneuver has ended (R167, R171). -/
def Part.resumeReturn (resume : Resume) (p : Part) : Part :=
  match resume with
  | .run => p
  | .homing =>
    match p.rtu.leg with
    | none => { p with rtu.planDue := true, agenda.returning := true }
    | some l => if p.leftStart l then p.endLeg else p.beginLeg l
  | .docking => if p.rtu.attempts < p.rtu.params.retries then p.startApproach else p.dockFailed

/-- The mode returns from MANEUVER to the resume mode (R10). Where `quiet`, the mode goes back to
MANEUVER in the same event and the return adds no entry of its own (R10, R15). -/
def Part.leaveManeuver (quiet : Bool) (p : Part) : Part :=
  match p.fcu.resume with
  | none => p
  | some r =>
    let p' :=
      if quiet then { p with fcu.mode := r.mode, fcu.resume := none }.markMode
      else p.setMode r.mode none
    p'.resumeReturn r

end Sys2Proof.Machine
end

