-- ==== Sys2Proof/Machine/Hazard.lean ====
section
/-! DEFINITION. The hazard rule engine: responses becoming active and ending, the pending slot, the
decision of a response, the deferral test's fall, and the walk (R142 to R155). -/

namespace Sys2Proof.Machine

/-- The mode tests of R145: the response is reported IGNORED. -/
def Fcu.ignores (f : Fcu) (r : Response) : Bool :=
  !f.mode.moving || (r.action == .home && (f.homing || f.docking))

/-- The response stands as the active one, its hold timer started where its action has one, and is
reported TAKEN (R146, R150 to R153). -/
def Part.installResponse (r : Response) (p : Part) : Part :=
  let timer := match r.action with
    | .slow | .stopBlade | .pause => some r.hold
    | .backTurn | .halt | .home => none
  ({ p with hre.active := some ⟨r, timer, false, 0, p.serial⟩ }.takeSerial.addHazard .taken r).mirrorLevel

/-- The stop cause of a HALT (R13, R144). -/
def Response.haltCause (r : Response) : StopCause :=
  match r.rule with
  | some i => .hazard i
  | none => .outsideBuiltin

/-- What a response that becomes active does, but for a HOME's end (R150 to R153, R155). -/
def Part.applyResponse (r : Response) (p : Part) : Part :=
  match r.action with
  | .slow | .stopBlade => p
  | .pause => p.enterManeuver.pauseStop
  | .backTurn => p.enterManeuver.markCut
  | .halt => p.enterStop .halted (some r.haltCause) true
  | .home => p.enterHoming.endActive

/-- A response becomes active (R146 step 1): taken, with its effects. -/
def Part.activateBasic (r : Response) (p : Part) : Part := (p.installResponse r).applyResponse r

/-- The pending response is decided as a new one with none active (R148): a HOME among them ends at once
and leaves the slot empty. -/
def Part.takePending (p : Part) : Part :=
  match p.hre.pending, p.hre.active with
  | some r, none =>
    let p' := { p with hre.pending := none }
    if p'.fcu.ignores r then p'.addHazard .ignored r else p'.activateBasic r
  | _, _ => p

/-- A response becomes active; a HOME ends in the same event and the pending response is taken in HOMING
(R155). -/
def Part.activate (r : Response) (p : Part) : Part :=
  match r.action with
  | .home => (p.activateBasic r).takePending
  | .pause | .backTurn | .slow | .stopBlade | .halt => p.activateBasic r

/-- The effects of the end of a response: a BACK_TURN's marked segment is cut, and a maneuver's mode returns
unless the maneuver goes over into another (R154). `stays` says that the mode stays MANEUVER; `quiet`
that the return adds no entry. -/
def Part.endEffects (a : Action) (stays quiet : Bool) (p : Part) : Part :=
  match a with
  | .pause => if stays then p else p.leaveManeuver quiet
  | .backTurn => if stays then p.cutMarked else p.cutMarked.leaveManeuver quiet
  | .slow | .stopBlade | .halt | .home => p

/-- With a SLOW or STOP_BLADE active in place of a maneuver that has ended, the deferral test has fallen, and
the pending maneuver will preempt it in the same event (R147). -/
def Part.liftFollows (r : Response) (p : Part) : Bool :=
  (match r.action with
    | .slow | .stopBlade => p.agenda.held && !p.deferralTest && p.fcu.mode.moving
    | .pause | .backTurn | .halt | .home => false) &&
  match p.hre.pending with
  | some q => q.action.maneuver && decide (r.level < q.level)
  | none => false

/-- The active response ends and the new one becomes active (R146 step 4, R147). Where the end itself has
stopped the part, the new response is reported IGNORED (R145), and the pending slot does not stay filled with
none active (R146). A return that a pending maneuver takes back
to MANEUVER in the same event adds no entry (R15, log 7). -/
def Part.preempt (a : Response) (r : Response) (p : Part) : Part :=
  let ended := fun quiet => p.endActive.endEffects a.action r.action.maneuver quiet
  let p' := ended ((ended true).liftFollows r)
  if p'.fcu.ignores r then (p'.addHazard .ignored r).takePending else p'.activate r

/-- The pending response will take the mode back to MANEUVER when the maneuver in force ends (R10). -/
def Part.maneuverFollows (p : Part) : Bool :=
  (match p.hre.pending with
    | some r => r.action.maneuver
    | none => false) &&
  !(p.fcu.resume == some .docking && decide (p.rtu.params.retries ≤ p.rtu.attempts))

/-- The active response ends on its own completion, and the pending one is taken (R148). -/
def Part.completeResponse (p : Part) : Part :=
  match p.hre.active with
  | none => p
  | some a =>
    (p.endActive.endEffects a.response.action false p.maneuverFollows).takePending

/-- Place a response in the pending slot, or drop it (R146 step 5). -/
def Part.placePending (r : Response) (p : Part) : Part :=
  match p.hre.pending with
  | none => { p with hre.pending := some r }.addHazard .deferred r
  | some q =>
    if q.level < r.level then
      ({ p with hre.pending := some r }.addHazard .dropped q).addHazard .deferred r
    else p.addHazard .dropped r

/-- The refresh of the active response by its own rule (R146 step 2). -/
def Part.refresh (a : Active) (r : Response) (p : Part) : Part :=
  match r.action with
  | .slow | .stopBlade => { p with hre.active := some { a with timer := some r.hold } }.addHazard .taken r
  | .pause =>
    ({ p with hre.active := some { a with timer := some r.hold } }.addHazard .taken r).pauseStop
  | .backTurn | .halt | .home => p.addHazard .ignored r

/-- The decision of a response (R145, R146). -/
def Part.decideResponse (r : Response) (p : Part) : Part :=
  if p.fcu.ignores r then p.addHazard .ignored r
  else
    match p.hre.active with
    | none => p.activate r
    | some a =>
      if r.rule.isSome && r.rule == a.response.rule then p.refresh a r
      else if p.deferralTest && !r.unconditional && (r.action.maneuver || r.action == .home) then
        p.placePending r
      else if r.unconditional || a.response.level < r.level then p.preempt a.response r
      else p.placePending r

/-- The deferral test has turned from holding to not holding: a pending response of higher level preempts
the active one (R147). The mode tests of R145 come first (log 16). -/
def Part.deferralLifted (p : Part) : Part :=
  match p.hre.active, p.hre.pending with
  | some a, some r =>
    if a.response.level < r.level then
      let p' := { p with hre.pending := none }
      if p'.fcu.ignores r then p'.addHazard .ignored r else p'.preempt a.response r
    else p
  | _, _ => p

/-- The test of R147 in an event that brings an announcement or a change of mode. -/
def Part.deferralPass (p : Part) : Part :=
  if p.agenda.held && !p.deferralTest then p.deferralLifted else p

/-- Link silence, or any entry into HOMING that a HOME response does not make: a maneuver in force ends and
the pending response is taken in HOMING (R11, R149). -/
def Part.homeBySilence (p : Part) : Part :=
  let p' := p.enterHoming
  match p'.hre.active with
  | some a => if a.response.action.maneuver then p'.endActive.takePending else p'
  | none => p'

/-! ### The walk -/

/-- Begin the next walk when none is in progress (R139, R142). -/
def Part.beginWalk (p : Part) : Part :=
  match p.hre.walk, p.hre.queue with
  | none, r :: rest =>
    { p with
      hre.queue := rest
      hre.walk := some ⟨r, p.ltr.zone, p.fcu.mode, 0⟩ }.requestRead .walk .rule 0 .ruleWalk
  | _, _ => p

/-- The walk ends; the next begins in the same event (R139). -/
def Part.endWalk (p : Part) : Part := { p with hre.walk := none, agenda.walk := true }

/-- The walk has met no TAKE rule: the built-in response for OUTSIDE, else none (R143, R144). -/
def Part.endOfTable (w : Walk) (p : Part) : Part :=
  if w.request.source = .outside then p.endWalk.decideResponse builtinResponse else p.endWalk

/-- The walk goes on at a rule index, or ends there (R143). -/
def Part.walkOn (w : Walk) (index : Nat) (p : Part) : Part :=
  if index < 64 then
    { p with hre.walk := some { w with index := index } }.requestRead .walk .rule index .ruleWalk
  else p.endOfTable w

/-- A rule read of the walk has completed (R142, R143). -/
def Part.walkRead (result : Option (List Int)) (p : Part) : Part :=
  match p.hre.walk with
  | none => p
  | some w =>
    match result with
    | none => p.endWalk
    | some v =>
      if ruleMatches v w then
        if valueAt v 6 = 0 then
          match actionOf (valueAt v 9).toNat with
          | some a => p.endWalk.decideResponse (responseOf v w.index w.request.source a)
          | none => p.endWalk
        else p.walkOn w (w.index + 2)
      else p.walkOn w (w.index + 1)

end Sys2Proof.Machine
end

