-- ==== Sys2Proof/Machine/Shaper.lean ====
section
/-! DEFINITION. The motion shaper: sources of motion, crediting, the effective cap, targets, steering,
the shift, clamp and ramp, the lookahead, the period computation, and tick conversion (R89 to R109). -/

namespace Sys2Proof.Machine

/-! ### Sources of motion (R91 to R93) -/

/-- The sources of motion behind the active maneuver (R91 orders 2 to 5). -/
def Part.plannedSource (p : Part) : Option SourceId :=
  match p.fcu.mode with
  | .homing => p.rtu.leg.map fun l => .leg l.key l.follow
  | .docking => if p.rtu.activity = .none then none else some (.dock p.rtu.dockKey)
  | .run => p.sq.activeSegment.map fun g => .segment g.key
  | .idle | .maneuver | .docked | .halted | .safe => none

/-- The source of motion as it stands; none is standstill (R91). -/
def Part.motionSource (p : Part) : Option SourceId :=
  match p.hre.active with
  | some a =>
    if a.response.action.maneuver then some (.maneuver a.key a.spinning) else p.plannedSource
  | none => p.plannedSource

/-- How a source reaches the shaper: its kind, its speed and the fields the kind needs (R92). -/
inductive Drive
  | straight (speed : Int)
  | arc (speed : Int) (ratio : Nat) (inner : Hand)
  | spin (speed : Int) (turn : Hand)
  | follow (speed : Int) (loop : Nat) (interior : Hand) (target : Int)
  | still
  deriving DecidableEq, Repr

/-- A segment as a source (R92). -/
def Segment.drive (g : Segment) : Drive :=
  match g.shape with
  | .straight => .straight g.speed
  | .arc ratio inner => .arc g.speed ratio inner
  | .spin turn => .spin g.speed turn
  | .follow loop interior target => .follow g.speed loop interior target
  | .pause => .still

/-- The settings values of a period that R97 names, by position (R175). -/
def maneuverSpeed (v : List Int) : Int := valueAt v 11
def homingSpeed (v : List Int) : Int := valueAt v 12
def dockSpeed (v : List Int) : Int := valueAt v 13

/-- The drive of the sources behind the active maneuver (R93). -/
def Part.plannedDrive (v : List Int) (p : Part) : Drive :=
  match p.fcu.mode with
  | .homing =>
    match p.rtu.leg with
    | some l =>
      if l.follow then .follow l.speed l.guideLoop l.interior l.offset else .straight (homingSpeed v)
    | none => .still
  | .docking =>
    match p.rtu.activity with
    | .none => .still
    | .approach =>
      .follow (dockSpeed v) p.rtu.params.loop p.rtu.params.interior p.rtu.params.target
    | .backoff => .straight (-(dockSpeed v))
  | .run =>
    match p.sq.activeSegment with
    | some g => g.drive
    | none => .still
  | .idle | .maneuver | .docked | .halted | .safe => .still

/-- The drive of the source of motion as it stands (R93). -/
def Part.motionDrive (v : List Int) (p : Part) : Drive :=
  match p.hre.active with
  | some a =>
    match a.response.action with
    | .pause => .still
    | .backTurn =>
      if a.spinning then .spin (maneuverSpeed v) a.response.side else .straight (-(maneuverSpeed v))
    | .slow | .stopBlade | .halt | .home => p.plannedDrive v
  | none => p.plannedDrive v

/-! ### Crediting (R106 to R108) -/

/-- How an interval's distance counts for a source (R107). -/
inductive StepKind
  | along
  | turning
  | time
  | nothing
  deriving DecidableEq, Repr

/-- A segment's kind of progress step (R107). With speed 0 and a length above 0 it makes no progress, unless it
is a PAUSE (R78, log 46). -/
def Segment.stepKind (g : Segment) : StepKind :=
  let moves := g.speed ≠ 0 ∨ g.length = 0
  match g.shape with
  | .straight | .arc .. | .follow .. => if moves then .along else .nothing
  | .spin _ => if moves then .turning else .nothing
  | .pause => .time

/-- A maneuver's kind of progress step (R107). A PAUSE makes none; a BACK_TURN makes none at a maneuver speed
of 0 (R153, log 46). -/
def Part.maneuverStepKind (a : Active) (p : Part) : StepKind :=
  if a.response.action = .pause ∨ p.msh.maneuverSpeed = 0 then .nothing
  else if a.spinning then .turning
  else .along

/-- The kind of progress step of the source as it stands (R107). -/
def Part.stepKind (p : Part) : StepKind :=
  match p.motionSource with
  | some (.maneuver ..) =>
    match p.hre.active with
    | some a => p.maneuverStepKind a
    | none => .nothing
  | some (.leg ..) | some (.dock _) => .along
  | some (.segment _) =>
    match p.sq.activeSegment with
    | some g => g.stepKind
    | none => .nothing
  | none => .nothing

/-- The progress step and the carry that remains (R107). -/
def progressStep (kind : StepKind) (dL dR : Int) (carry : Nat) : Nat × Nat :=
  match kind with
  | .along => let n := (dL + dR).natAbs + carry; (n / 2, n % 2)
  | .turning => let n := dL.natAbs + dR.natAbs + carry; (n / 2, n % 2)
  | .time => (Config.shaperPeriodMs, carry)
  | .nothing => (0, carry)

/-- A credit to the active segment; one that brings its progress to its length completes it (R108). -/
def Part.creditSegment (step : Nat) (p : Part) : Part :=
  let progress := saturate 4294967295 (p.msh.progress + step)
  let p' := { p with msh.progress := progress }
  match p.sq.activeSegment with
  | some g => if 0 < g.length ∧ g.length ≤ progress then p'.completeActive else p'
  | none => p'

/-- A credit to a BACK_TURN: the engine adds it to the phase and tests the phase. At a maneuver speed of 0 it
makes no progress and goes on, whatever the wheels roll and whatever its distances (R153). That the speed is the
shaper's copy, and that a distance of 0 is not reached at speed 0, is the model's (log 46: DESIGN CHOICE). -/
def Part.creditBackTurn (a : Active) (step : Nat) (p : Part) : Part :=
  let progress := a.progress + step
  if p.msh.maneuverSpeed = 0 then p
  else if a.spinning then
    if a.response.spin ≤ progress then p.completeResponse
    else { p with hre.active := some { a with progress := progress } }
  else if a.response.reverse ≤ progress then
    { p with hre.active := some { a with spinning := true, progress := 0 } }.markMotion
  else { p with hre.active := some { a with progress := progress } }

/-- A credit to the leg: the zone test, then the search distance (R165, R166). -/
def Part.creditLeg (l : Leg) (step : Nat) (p : Part) : Part :=
  let distance := saturate 65535 (l.distance + step)
  if p.leftStart l then p.endLeg
  else
    let p' := { p with rtu.leg := some { l with distance := distance } }
    if !l.follow && l.search < distance then p'.homingFailed else p'

/-- A credit to the dock approach or backoff (R168, R170). -/
def Part.creditDock (step : Nat) (p : Part) : Part :=
  let distance := saturate 65535 (p.rtu.distance + step)
  let p' := { p with rtu.distance := distance }
  match p.rtu.activity with
  | .none => p
  | .approach => if p.rtu.params.approachLimit ≤ distance then p'.attemptFailed 0 else p'
  | .backoff => if p.rtu.params.backoff ≤ distance then p'.backoffEnded else p'

/-- The step goes to the block that keeps the source's progress (R107). -/
def Part.creditSource (step : Nat) (p : Part) : Part :=
  match p.motionSource with
  | none => p
  | some (.maneuver ..) =>
    match p.hre.active with
    | some a => if a.response.action = .backTurn then p.creditBackTurn a step else p
    | none => p
  | some (.leg ..) =>
    match p.rtu.leg with
    | some l => p.creditLeg l step
    | none => p
  | some (.dock _) => p.creditDock step
  | some (.segment _) => p.creditSegment step

/-- The odometer of an expiry (R106). -/
def Msh.creditOdometer (m : Msh) : Msh :=
  let n := (m.wheels.left.distance + m.wheels.right.distance).natAbs + m.odometerCarry
  { m with
    wheels := ⟨{ m.wheels.left with distance := 0 }, { m.wheels.right with distance := 0 }⟩
    odometer := m.odometer + BitVec.ofNat 32 (n / 2)
    odometerCarry := n % 2 }

/-- An expiry credits the interval's distance to the odometer and to the source (R106, R107). -/
def Part.creditInterval (p : Part) : Part :=
  let dL := p.msh.wheels.left.distance
  let dR := p.msh.wheels.right.distance
  let source := p.motionSource
  let carry := if source.isSome && source == p.msh.credited then p.msh.progressCarry else 0
  let step := progressStep p.stepKind dL dR carry
  let m := p.msh.creditOdometer
  { p with msh := { m with credited := source, progressCarry := step.2 } }.creditSource step.1

/-! ### The effective cap (R94 to R96) -/

/-- Zone cap, slope start and slope limit of a period (R95). -/
structure ZoneTerms where
  cap : Int
  start : Int
  limit : Int
  deriving DecidableEq, Repr

/-- The terms from the read of the current zone's entry, or the unknown terms (R95). -/
def zoneTerms (v : List Int) (entry : Option (List Int)) : ZoneTerms :=
  match entry with
  | some e =>
    if (zoneEntryOf e).valid then
      ⟨(zoneEntryOf e).speedCap, (zoneEntryOf e).slopeStart, (zoneEntryOf e).slopeLimit⟩
    else ⟨valueAt v 4, valueAt v 5, valueAt v 6⟩
  | none => ⟨valueAt v 4, valueAt v 5, valueAt v 6⟩

/-- The slope cap at a slope (R96). -/
def slopeCapAt (t : ZoneTerms) (a : Int) : Int :=
  if a ≤ t.start then t.cap
  else if t.limit ≤ a then 0
  else t.cap * (t.limit - a) / (t.limit - t.start)

/-- The slope cap of a period: the blind cap without fresh attitude values (R96). -/
def SenseIntake.slopeCap (s : SenseIntake) (t : ZoneTerms) : Int :=
  match s.attitude with
  | none => t.cap / 4
  | some a => if s.stale.s2 then t.cap / 4 else slopeCapAt t (max a.pitch.natAbs a.roll.natAbs)

/-- The effective cap of a period (R94). -/
def Part.effectiveCap (v : List Int) (t : ZoneTerms) (p : Part) : Int :=
  let slow := match p.hre.active with
    | some a => if a.response.action = .slow then (a.response.cap : Int) else 1500
    | none => 1500
  let home := if p.fcu.homing then homingSpeed v else 1500
  let dock := if p.fcu.docking then dockSpeed v else 1500
  min 1500 (min t.cap (min (p.sin.slopeCap t) (min slow (min home dock))))

/-! ### Targets and setpoints (R92, R98 to R103) -/

/-- A loop's combined state, offset and offset age; a loop that does not exist is untracked (R69). -/
def Ltr.follow (l : Ltr) (k : Nat) : Combined × Int × Nat :=
  match loopIndices[k]? with
  | some i => ((l.tracks.get i).combined, (l.tracks.get i).offset, (l.tracks.get i).age)
  | none => (.unseen, 0, 255)

/-- The base speed of a FOLLOW source (R99). -/
def followBase (state : Combined) (age : Nat) (cap v : Int) : Int :=
  if state = .lost then 0
  else if age ≤ 2 then v
  else clampInt (-(cap / 2)) (cap / 2) v

/-- The steering correction from an error and the error memory (R98 steps 3 and 4). -/
def steering (v : List Int) (err memory : Int) : Int :=
  clampInt (-(valueAt v 10)) (valueAt v 10)
    (roundHalfAway (valueAt v 8 * err + valueAt v 9 * (err - memory)) 64)

/-- The error of a FOLLOW source (R98 step 1). -/
def followError (interior : Hand) (offset target : Int) : Int :=
  (match interior with
    | .left => offset
    | .right => -offset) - target

/-- The two wheel targets of a drive other than FOLLOW, and of a FOLLOW with correction 0 (R92). -/
def Drive.targets (d : Drive) (base delta : Int) : Int × Int :=
  match d with
  | .straight v => (v, v)
  | .arc v ratio .left => (v * ratio / 256, v)
  | .arc v ratio .right => (v, v * ratio / 256)
  | .spin v .right => (v.natAbs, -(v.natAbs : Int))
  | .spin v .left => (-(v.natAbs : Int), v.natAbs)
  | .follow .. => (base - delta, base + delta)
  | .still => (0, 0)

/-- The targets of a period with the error memory after it (R92, R98, R99). `fresh` says that the source
is new (R91). -/
def Part.periodTargets (v : List Int) (cap : Int) (fresh : Bool) (d : Drive) (p : Part) :
    (Int × Int) × Option Int :=
  match d with
  | .follow speed loop interior target =>
    let f := p.ltr.follow loop
    if f.1 = .lost then ((0, 0), none)
    else
      let err := followError interior f.2.1 target
      let memory := if fresh then err else p.msh.errorMemory.getD err
      (d.targets (followBase f.1 f.2.2 cap speed) (steering v err memory), some err)
  | .straight _ | .arc .. | .spin .. | .still => (d.targets 0 0, p.msh.errorMemory)

/-- Shift and clamp (R100). -/
def shiftClamp (cap : Int) (t : Int × Int) : Int × Int :=
  let big := if t.1.natAbs < t.2.natAbs then t.2 else t.1
  let excess := (big.natAbs : Int) - cap
  let move := if excess ≤ 0 then 0 else if 0 < big then -excess else excess
  (clampInt (-cap) cap (t.1 + move), clampInt (-cap) cap (t.2 + move))

/-- Ramp and final clamp of one wheel (R101). -/
def ramp (cap step previous target : Int) : Int :=
  clampInt (-cap) cap (clampInt (previous - step) (previous + step) target)

/-- The record behind the head, where a lookahead half applies (R103). -/
def Part.lookaheadRecord (p : Part) : Option Segment :=
  if p.fcu.mode = .run ∧ p.motionSource.isSome then
    match p.sq.activeSegment, p.sq.queue with
    | some g, _ :: next :: _ =>
      if 0 < g.length ∧ g.shape ≠ .pause ∧ g.length ≤ p.msh.progress + 300 then some next else none
    | _, _ => none
  else none

/-- The lookahead value of each wheel: the waiting record's target with correction 0, clamped (R103). -/
def Part.lookahead (cap : Int) (p : Part) : Option (Int × Int) :=
  p.lookaheadRecord.map fun g =>
    let base := match g.drive with
      | .follow speed loop _ _ => followBase (p.ltr.follow loop).1 (p.ltr.follow loop).2.2 cap speed
      | .straight _ | .arc .. | .spin .. | .still => 0
    let t := g.drive.targets base 0
    (clampInt (-cap) cap t.1, clampInt (-cap) cap t.2)

/-- The end of a period computation that passes nothing (R90). It takes no steering error: the error memory
stands as the last passing computation or stop left it, but is absent behind a computation of a new
source, so that the source's next period seeds it (R91, R98, log 34). -/
def Part.dropComputation (c : Computation) (p : Part) : Part :=
  { p with
    msh.computation := none
    msh.errorMemory := if c.fresh then none else p.msh.errorMemory }

/-- The end of a period computation: the setpoints are passed, unless a stop, a change of source or of mode
has come meanwhile (R90). Its steps read attitude, tracks, SLOW, mode and progress here, all of them in the event
that completes its last store read; R90 does not say when its steps are made (log 51: DESIGN CHOICE). -/
def Part.finishComputation (c : Computation) (v : List Int) (entry : Option (List Int)) (p : Part) : Part :=
  if c.stopped || p.motionSource != c.source || !p.fcu.mode.moving then p.dropComputation c
  else
    let cap := p.effectiveCap v (zoneTerms v entry)
    let r := p.periodTargets v cap c.fresh (p.motionDrive v)
    let t := shiftClamp cap r.1
    let left := ramp cap (valueAt v 7) p.msh.previousLeft t.1
    let right := ramp cap (valueAt v 7) p.msh.previousRight t.2
    let look := p.lookahead cap
    { p with
      msh.computation := none
      msh.previousLeft := left
      msh.previousRight := right
      msh.errorMemory := r.2 }
      |>.askSetpoint 0 left (look.map Prod.fst) |>.askSetpoint 1 right (look.map Prod.snd)

/-- The source of motion of a period computation in progress has changed: it passes nothing, even where the
source comes back before its end (R90, log 22). -/
def Part.noteSource (p : Part) : Part :=
  match p.msh.computation with
  | some c => if p.motionSource = c.source then p else { p with msh.computation := some c.stop }
  | none => p

/-- Begin a period computation in a moving mode when none is in progress (R90). Its source is new where the
previous computation's was another (R91). -/
def Part.beginComputation (p : Part) : Part :=
  if p.fcu.mode.moving && p.msh.computation.isNone then
    { p with
      msh.source := p.motionSource
      msh.computation := some ⟨p.motionSource, p.motionSource != p.msh.source, false, .settings⟩ }
      |>.requestRead .shaper .settings 0 .shaper
  else p

/-- A read of the period computation has completed: the settings, which the drive bus master's copies take
too (R131), and the shaper's copy of the maneuver speed (log 46), then the current zone's entry where the zone is
known (R90, R95). The order of the two reads is the model's (log 47: DESIGN CHOICE). -/
def Part.shaperRead (result : Option (List Int)) (p : Part) : Part :=
  match p.msh.computation with
  | none => p
  | some c =>
    match c.stage with
    | .settings =>
      let v := result.getD (defaultFields .settings)
      let p' := { p with
        dbm.responseLimit := settingOf v 15
        dbm.holdLimit := settingOf v 16
        msh.maneuverSpeed := settingOf v 11 }
      match p.ltr.zone with
      | some z =>
        { p' with msh.computation := some { c with stage := .zone v } }.requestRead .shaper .zone z .shaper
      | none => p'.finishComputation c v none
    | .zone v => p.finishComputation c v result

/-! ### Tick conversion (R104, R105) -/

/-- The signed tick delta of a new count. -/
def tickDelta (count reference : BitVec 16) : Int := (count - reference).toInt

/-- The delta is plausible: its distance does not exceed 3000 mm/s over the time (R105). -/
def plausible (delta : Int) (kilotick time : Nat) : Bool := delta.natAbs * kilotick ≤ 3000 * time

/-- The conversion of a wheel's accepted tick count (R104). -/
def Wheel.convert (w : Wheel) (count : BitVec 16) (kilotick : Nat) (now : Clock) : Wheel :=
  match w.reference with
  | none => { w with reference := some count, referenceTime := now }
  | some reference =>
    let delta := tickDelta count reference
    let w' := { w with reference := some count, referenceTime := now }
    if plausible delta kilotick (now - w.referenceTime).toNat then
      let n := delta * kilotick + w.carry
      { w' with distance := w.distance + n / 1000, carry := (n % 1000).toNat }
    else w'

/-- The shaper converts an accepted tick count of a wheel node. -/
def Part.convertTicks (n : Fin 3) (count : BitVec 16) (p : Part) : Part :=
  match n with
  | 0 =>
    { p with msh.wheels.left := p.msh.wheels.left.convert count p.msh.kilotick p.clock }
  | 1 =>
    { p with msh.wheels.right := p.msh.wheels.right.convert count p.msh.kilotick p.clock }
  | 2 => p

end Sys2Proof.Machine
end

