-- ==== Sys2Proof/Machine/Correlator.lean ====
section
/-! DEFINITION. The signal correlator: the sums, the peaks, the verdicts and the reading records of a
frame (R23 to R43). -/

namespace Sys2Proof.Machine

/-- The code rotated to shift s: chip (i + s) mod 32 at place i (R31). -/
def rotatedChip (code : BitVec 32) (s i : Nat) : Bool := code.getLsbD ((i + s) % 32)

/-- The correlation sum at shift s of samples from place i on (R31); a set bit is chip −1. -/
def sumFrom (code : BitVec 32) (s : Nat) : Nat → List (BitVec 12) → Int
  | _, [] => 0
  | i, x :: xs => (if rotatedChip code s i then -x.toInt else x.toInt) + sumFrom code s (i + 1) xs

/-- The correlation sum C(s) (R31). -/
def correlation (code : BitVec 32) (samples : List (BitVec 12)) (s : Nat) : Int := sumFrom code s 0 samples

/-- The 32 sums of a loop on a coil. -/
def correlations (code : BitVec 32) (samples : List (BitVec 12)) : List Int :=
  (List.range 32).map (correlation code samples)

/-- The peak shift with its sum and the second peak, found in one pass over the sums: a later sum takes the
peak only when its magnitude is larger (R32, R33). -/
structure Peak where
  shift : Nat
  value : Int
  second : Nat
  deriving DecidableEq, Repr

def scanPeak (best : Peak) : Nat → List Int → Peak
  | _, [] => best
  | s, c :: cs =>
    if best.value.natAbs < c.natAbs then scanPeak ⟨s, c, best.value.natAbs⟩ (s + 1) cs
    else scanPeak { best with second := max best.second c.natAbs } (s + 1) cs

/-- The peak of a list of sums (R32, R33). -/
def peakOf : List Int → Peak
  | [] => ⟨0, 0, 0⟩
  | c :: cs => scanPeak ⟨0, c, 0⟩ 1 cs

/-- The peak of a loop on a coil. -/
def coilPeak (e : LoopEntry) (samples : List (BitVec 12)) : Peak := peakOf (correlations e.code samples)

/-- The polarity-corrected peak (R34). -/
def correctedPeak (e : LoopEntry) (peak : Int) : Int := if e.inverted then -peak else peak

/-- The magnitudes of the FOREIGN peaks on a coil (R37, R40). -/
def foreignPeaks (samples : List (BitVec 12)) : List LoopRead → List Nat
  | [] => []
  | .entry e :: rest =>
    if e.valid && e.role == .foreign then (coilPeak e samples).value.natAbs :: foreignPeaks samples rest
    else foreignPeaks samples rest
  | .unreadable :: rest => foreignPeaks samples rest

/-- The verdict of an own loop on a coil (R36 to R39). -/
def verdictOf (e : LoopEntry) (k : Peak) (foreign : List Nat) : Verdict :=
  if k.value.natAbs < e.minStrength then .missing
  else if foreign.any (fun f => decide (k.value.natAbs < f)) then .contested
  else if 8 * k.value.natAbs < e.peakRatio * k.second then .weak
  else .found

/-- The side of a FOUND reading (R39). -/
def sideOf (corrected : Int) : Side := if 0 < corrected then .inside else .outside

/-- The reading record of a loop on a coil (R35, R41, R42); absent for an entry read as valid no. -/
def readingOf (number : Byte) (samples : List (BitVec 12)) (foreign : List Nat) (r : LoopRead) :
    Option Reading :=
  match r with
  | .unreadable =>
    some { frame := number, role := none, shift := none, peak := none, second := none,
           verdict := some .missing, side := none }
  | .entry e =>
    if !e.valid then none
    else
      let k := coilPeak e samples
      if e.role = .foreign then
        some { frame := number, role := some e.role, shift := some k.shift, peak := some k.value,
               second := some k.second, verdict := none, side := none }
      else
        let verdict := verdictOf e k foreign
        let corrected := correctedPeak e k.value
        some { frame := number, role := some e.role, shift := some k.shift, peak := some corrected,
               second := some k.second, verdict := some verdict,
               side := if verdict = .found then some (sideOf corrected) else none }

/-- The role, confirm count and loss limit of an own loop as read, or absent after an unreadable entry; the
outer `none` for a loop that has no part in the result (R43). -/
def loopPart (r : LoopRead) : Option (Option (Role × Nat × Nat)) :=
  match r with
  | .unreadable => some none
  | .entry e => if e.own then some (some (e.role, e.confirm, e.lossLimit)) else none

/-- Begin processing a frame (R23, R24, R29). -/
def Part.beginFrame (f : CoilFrame) (p : Part) : Part :=
  { p with scr.processing := some ⟨f, []⟩, scr.lastFrame := some f.number }
    |>.requestRead .correlator .loopCode 0 .correlator

/-- A coil frame is handed to SCR (R24). -/
def Part.takeCoilFrame (f : CoilFrame) (p : Part) : Part :=
  match p.scr.processing with
  | none => p.beginFrame f
  | some _ => { p with scr.waiting := some f }

/-- The reading records after a frame (R42). -/
def frameReadings (f : CoilFrame) (reads : List LoopRead) : List (Pair (Option Reading)) :=
  let foreignL := foreignPeaks f.left reads
  let foreignR := foreignPeaks f.right reads
  reads.map fun r => ⟨readingOf f.number f.left foreignL r, readingOf f.number f.right foreignR r⟩

/-- Write the records of loops from a list in index order. -/
def writeReadings (readings : Eight (Pair (Option Reading))) :
    List (Fin 8) → List (Pair (Option Reading)) → Eight (Pair (Option Reading))
  | i :: is, r :: rs => writeReadings (readings.set i r) is rs
  | _, _ => readings

end Sys2Proof.Machine
end

