-- ==== Sys2Proof/Machine/Tracker.lean ====
section
/-! DEFINITION. The loop tracker: debounce, misses, losses, the combined state, the offset, the frame
result, the zone evaluation and the passage lookup (R47 to R67), and the crossing events it hands to the
Return Unit (R159, R161). -/

namespace Sys2Proof.Machine

/-! ### One loop (R48 to R55) -/

/-- A FOUND reading with a side is applied to a coil (R48). -/
def CoilSide.observe (c : CoilSide) (confirm : Nat) (x : Side) : CoilSide :=
  if c.side = some x then { c with candidate := none, agree := 0 }
  else
    let agree := if c.candidate = some x then c.agree + 1 else 1
    if confirm ≤ agree then { side := some x, candidate := none, agree := 0 }
    else { c with candidate := some x, agree := agree }

/-- The side of a FOUND reading; none for a reading that is not FOUND. -/
def foundSide (r : Option Reading) : Option Side :=
  match r with
  | some r => if r.verdict = some .found then r.side else none
  | none => none

/-- A reading is applied to a coil; one that is not FOUND leaves it (R48). -/
def CoilSide.apply (c : CoilSide) (confirm : Nat) (r : Option Reading) : CoilSide :=
  match foundSide r with
  | some x => c.observe confirm x
  | none => c

/-- A loss: the lost flag is set, the sides become UNSEEN, the candidates absent (R49). -/
def LoopTrack.lose (t : LoopTrack) : LoopTrack := { t with lost := true, left := {}, right := {} }

/-- The combined state of a loop from its record (R51). -/
def LoopTrack.combinedNow (t : LoopTrack) : Combined :=
  if t.lost then .lost
  else
    match t.left.side, t.right.side with
    | none, none => .unseen
    | none, some .inside | some .inside, none => .inside
    | none, some .outside | some .outside, none => .outside
    | some .inside, some .inside => .inside
    | some .outside, some .outside => .outside
    | some .inside, some .outside => .crossLR
    | some .outside, some .inside => .crossRL

/-- Set the combined state; a change makes the held one the previous (R51). -/
def LoopTrack.settleCombined (t : LoopTrack) : LoopTrack :=
  if t.combinedNow = t.combined then t
  else { t with previous := t.combined, combined := t.combinedNow }

/-- The wire offset from the two corrected peaks and the coil spacing (R54). -/
def wireOffset (spacing : Nat) (pL pR : Int) : Int :=
  clampInt (-(spacing / 2 : Nat)) (spacing / 2 : Nat)
    (roundHalfAway (spacing * (pL + pR)) (2 * (pL.natAbs + pR.natAbs)))

/-- Misses and losses of a frame (R49). -/
def LoopTrack.countMiss (t : LoopTrack) (found : Bool) : LoopTrack :=
  if found then { t with miss := 0 }
  else if t.lost then t
  else
    let t' := { t with miss := saturate 255 (t.miss + 1) }
    if t.lossLimit ≤ t'.miss then t'.lose else t'

/-- The offset of a frame is computed or held (R54, R55). -/
def LoopTrack.measure (t : LoopTrack) (spacing : Nat) (l r : Option Reading) : LoopTrack :=
  if (foundSide l).isSome && (foundSide r).isSome then
    let peak := fun (x : Option Reading) => (x.bind Reading.peak).getD 0
    { t with offset := wireOffset spacing (peak l) (peak r), age := 0 }
  else { t with age := saturate 255 (t.age + 1) }

/-- The values a frame result carries for a loop replace the record's; absent ones leave it (R46). -/
def LoopTrack.carry (t : LoopTrack) (part : Option (Role × Nat × Nat)) : LoopTrack :=
  match part with
  | some (role, confirm, loss) =>
    { t with tracked := true, role := some role, confirm := confirm, lossLimit := loss }
  | none => { t with tracked := true }

/-- One loop's part of a frame result is applied to its record (R47 step 1). -/
def LoopTrack.frame (t : LoopTrack) (part : Option (Role × Nat × Nat)) (l r : Option Reading)
    (spacing : Nat) : LoopTrack :=
  let found := (foundSide l).isSome || (foundSide r).isSome
  let t1 := t.carry part
  let t2 := if found then { t1 with lost := false } else t1
  let t3 := { t2 with left := t2.left.apply t2.confirm l, right := t2.right.apply t2.confirm r }
  ((t3.countMiss found).measure spacing l r).settleCombined

/-! ### Crossings to the Return Unit (R159, R161) -/

/-- A piece of the route is lost (R161). -/
def Part.routeLost (c : Crossing) (p : Part) : Part :=
  if p.rtu.overflow then p
  else
    { p with rtu.overflow := true }.addEntry .stackOverflow c.passage (c.odometer.toNat % 2147483648)

/-- A crossing event reaches the Return Unit (R159). -/
def Part.receiveCrossing (c : Crossing) (p : Part) : Part :=
  if p.fcu.mode = .docked then p
  else
    match p.rtu.crossings with
    | oldest :: rest =>
      if Config.crossingPlaces ≤ p.rtu.crossings.length then
        { p with rtu.crossings := rest ++ [c], agenda.returning := true }.routeLost oldest
      else { p with rtu.crossings := p.rtu.crossings ++ [c], agenda.returning := true }
    | [] => { p with rtu.crossings := [c], agenda.returning := true }

/-! ### Zone evaluation (R62 to R67) -/

/-- A pattern value accepts a combined state (R64). What value 3, which no list names, accepts is a free
value (log 11). -/
def patternAccepts (value : Nat) (c : Combined) : Bool :=
  match value with
  | 0 => true
  | 1 => c == .inside
  | 2 => c == .outside || c == .unseen || c == .lost
  | _ => Config.unlistedPatternAccepts c.code

/-- A pattern matches the loop states (R64). -/
def patternMatches (e : ZoneEntry) (states : Eight Combined) : Bool :=
  loopIndices.all fun i => patternAccepts (e.patternAt i.val) (states.get i)

/-- The loop states as they stand. -/
def Ltr.states (l : Ltr) : Eight Combined := l.tracks.map (·.combined)

/-- Begin a zone evaluation (R62, R63). Held with the zone UNKNOWN, it ends at once and changes nothing. -/
def Part.beginEval (p : Part) : Part :=
  let states := p.ltr.states
  if states.toList.any Combined.cross then
    match p.ltr.zone with
    | some z => { p with ltr.eval := some ⟨states, .held z⟩ }.requestRead .zoneEval .zone z .zoneEval
    | none => p
  else { p with ltr.eval := some ⟨states, .scan 0⟩ }.requestRead .zoneEval .zone 0 .zoneEval

/-- A trigger of zone evaluation arrives (R62). -/
def Part.triggerEval (p : Part) : Part :=
  match p.ltr.eval with
  | none => p.beginEval
  | some _ => { p with ltr.reevaluate := true }

/-- An evaluation has ended; a set re-evaluation mark begins another in the same event (R62). -/
def Part.endEval (p : Part) : Part :=
  let p' := { p with ltr.eval := none }
  if p'.ltr.reevaluate then { p' with ltr.reevaluate := false }.beginEval else p'

/-- The end condition UNTIL_ZONE is tested on the announcement of a zone (R109). -/
def Part.announceZone (z : Nat) (p : Part) : Part :=
  match p.sq.activeSegment with
  | some g => if g.endCondition = some (EndCondition.untilZone z) then p.completeActive else p
  | none => p

/-- The current zone takes a known result (R65). -/
def Part.takeZone (z bladeMax : Nat) (p : Part) : Part :=
  ({ p with
    ltr.zone := some z
    ltr.lastZone := some z
    fcu.zoneBladeMax := bladeMax
    agenda.blade := true
    agenda.returning := true }.addEntry .zoneChanged z (zoneCode p.ltr.zone)).announceZone z

/-- The current zone becomes UNKNOWN (R65). -/
def Part.loseZone (p : Part) : Part :=
  { p with ltr.zone := none, agenda.blade := true }.addEntry .zoneChanged 255 (zoneCode p.ltr.zone)

/-- The known zone that a change to a known zone comes from, where it calls for a passage lookup (R65). -/
def Ltr.leaving (l : Ltr) (z : Nat) : Option Nat :=
  match l.zone with
  | some z1 => some z1
  | none => if l.lastZone = some z then none else l.lastZone

/-- The zone that an evaluation finds is handed out (R16, R65); a change between known zones looks up a
passage first (R66). -/
def Part.foundZone (ev : ZoneEval) (z bladeMax : Nat) (p : Part) : Part :=
  if p.ltr.zone = some z then
    { p with fcu.zoneBladeMax := bladeMax, agenda.blade := true }.endEval
  else
    match p.ltr.leaving z with
    | some z1 =>
      { p with ltr.eval := some { ev with stage := .lookup ⟨z, bladeMax, z1⟩ 0 } }
        |>.requestRead .zoneEval .passage 0 .zoneEval
    | none => (p.takeZone z bladeMax).endEval

/-- No zone matches (R63). -/
def Part.foundNoZone (p : Part) : Part :=
  if p.ltr.zone = none then p.endEval else p.loseZone.endEval

/-- The change is made with the passage found: a crossing (R65, R66). The crossing event reaches the Return Unit
before the CROSSING entry is added, so that the STACK_OVERFLOW entry of a full crossing list stands between the
ZONE_CHANGED and the CROSSING entry (R161; log 53: DESIGN CHOICE). -/
def Part.crossed (c : ZoneChange) (passage : Nat) (p : Part) : Part :=
  let event : Crossing := ⟨passage, c.leaving, c.zone, p.msh.odometer⟩
  (((p.takeZone c.zone c.bladeMax).receiveCrossing event).addEntry .crossing passage
    (c.leaving + 256 * c.zone)).endEval

/-- The change is made with no passage found: a stray (R65, R67). -/
def Part.strayed (c : ZoneChange) (p : Part) : Part :=
  ((p.takeZone c.zone c.bladeMax).requestWalk .stray c.zone c.zone).endEval

/-- A read of the evaluation has completed (R63, R66). -/
def Part.evalRead (result : Option (List Int)) (p : Part) : Part :=
  match p.ltr.eval with
  | none => p
  | some ev =>
    match ev.stage with
    | .held z =>
      match result with
      | some v =>
        if (zoneEntryOf v).valid then p.foundZone ev z (zoneEntryOf v).bladeMax else p.foundNoZone
      | none => p.foundNoZone
    | .scan i =>
      let next :=
        if i + 1 < 24 then
          { p with ltr.eval := some { ev with stage := .scan (i + 1) } }
            |>.requestRead .zoneEval .zone (i + 1) .zoneEval
        else p.foundNoZone
      match result with
      | some v =>
        if (zoneEntryOf v).valid && patternMatches (zoneEntryOf v) ev.states then
          p.foundZone ev i (zoneEntryOf v).bladeMax
        else next
      | none => next
    | .lookup c i =>
      let next :=
        if i + 1 < 32 then
          { p with ltr.eval := some { ev with stage := .lookup c (i + 1) } }
            |>.requestRead .zoneEval .passage (i + 1) .zoneEval
        else p.strayed c
      match result with
      | some v =>
        if (passageEntryOf v).valid && (passageEntryOf v).joins c.leaving c.zone then p.crossed c i
        else next
      | none => next

/-! ### Frame results (R47, R52, R53) and the coil-stale effect (R50) -/

/-- The value of a LOOP_STATE entry, but for its frame number part. -/
def loopStateValue (now before : Combined) : Nat := now.code + 256 * before.code

/-- The loop that the active segment waits for with UNTIL_CROSS (R78, R109). -/
def Part.awaitedLoop (p : Part) : Option Nat :=
  match p.sq.activeSegment.bind (·.endCondition) with
  | some (.untilCross k) => some k
  | some (.untilZone _) | none => none

/-- A loop has entered a CROSS state: the end condition UNTIL_CROSS and the acquisition of the leg's guide
wire (R52, R109, R165). `awaited` is the loop that the segment active before the frame result waits for. A leg
that a maneuver suspends is not moved (log 37). -/
def Part.announceCross (awaited : Option Nat) (k : Nat) (p : Part) : Part :=
  let p1 := if awaited = some k then p.completeActive else p
  match p1.rtu.leg with
  | some l =>
    if l.guideLoop = k ∧ ¬ l.follow ∧ p1.fcu.mode = Mode.homing then
      { p1 with rtu.leg := some { l with follow := true, distance := 0 } }.markMotion
    else p1
  | none => p1

/-- What the change of one loop hands out, in the order of R47 step 3: the LOOP_STATE entry, the
announcement, and the walk requests. -/
def Part.handOut (awaited : Option Nat) (number : Byte) (i : Fin 8) (before after : LoopTrack) (p : Part) : Part :=
  if before.combined = after.combined then p
  else
    let p1 := p.addEntry .loopState i.val
      (loopStateValue after.combined before.combined + 65536 * number.toNat)
    let p2 := if after.combined.cross && !before.combined.cross then p1.announceCross awaited i.val else p1
    let p3 := if after.lost && !before.lost then p2.requestWalk .wireLost i.val i.val else p2
    if after.tracked && after.role == some .perimeter && after.combined == .outside then
      p3.requestWalk .outside i.val 1
    else p3

/-- Hand out the changes of the loops listed, in order. Only the segment active before the frame result meets an
announcement: the states of all loops stand at the activation of one behind it (R78, R109, log 35). -/
def Part.handOutAll (awaited : Option Nat) (number : Byte) (before : Eight LoopTrack) :
    List (Fin 8) → Part → Part
  | [], p => p
  | i :: is, p =>
    (p.handOut awaited number i (before.get i) (p.ltr.tracks.get i)).handOutAll awaited number before is

/-- The track of one loop after a frame result: applied, or untracked when it has no part (R47). -/
def trackAfter (t : LoopTrack) (r : LoopRead) (readings : Pair (Option Reading)) (spacing : Nat) :
    LoopTrack :=
  match loopPart r with
  | some part => t.frame part readings.left readings.right spacing
  | none => {}

/-- The tracks after a frame result. -/
def tracksAfter (tracks : Eight LoopTrack) (readings : Eight (Pair (Option Reading))) (spacing : Nat) :
    List (Fin 8) → List LoopRead → Eight LoopTrack
  | i :: is, r :: rs =>
    tracksAfter (tracks.set i (trackAfter (tracks.get i) r (readings.get i) spacing)) readings spacing is rs
  | _, _ => tracks

/-- Some loop's combined state differs between two sets of tracks. -/
def anyChange (before after : Eight LoopTrack) : Bool :=
  loopIndices.any fun i => (before.get i).combined != (after.get i).combined

/-- The end of a frame's processing: the records, the frame result, and the frame in the waiting place
(R24, R42, R43, R47). All sixteen records are written here, in the event of the eighth read; R42 and R43 say only
that they are written before the frame result is handed on (log 50: DESIGN CHOICE). -/
def Part.frameDone (f : CoilFrame) (reads : List LoopRead) (p : Part) : Part :=
  let readings := writeReadings p.scr.readings loopIndices (frameReadings f reads)
  let before := p.ltr.tracks
  let after := tracksAfter before readings p.ltr.spacing loopIndices reads
  let p1 := { p with scr.readings := readings, scr.processing := none, ltr.tracks := after }
    |>.handOutAll p.awaitedLoop f.number before loopIndices
  let p2 := if anyChange before after then p1.triggerEval else p1
  match p2.scr.waiting with
  | some w => { p2 with scr.waiting := none }.beginFrame w
  | none => p2

/-- A loop code read of a frame has completed (R29, R35). -/
def Part.correlatorRead (result : Option (List Int)) (p : Part) : Part :=
  match p.scr.processing with
  | none => p
  | some q =>
    let read := match result with
      | some v => LoopRead.entry (loopEntryOf v)
      | none => LoopRead.unreadable
    let reads := q.reads ++ [read]
    if reads.length < 8 then
      { p with scr.processing := some { q with reads := reads } }
        |>.requestRead .correlator .loopCode reads.length .correlator
    else p.frameDone q.frame reads

/-- One tracked loop is lost by the coil-stale effect; its LOOP_STATE entry carries the frame number as
absent, its frame number byte being a free value (R50, R52, log 11). -/
def Part.staleLoop (i : Fin 8) (p : Part) : Part :=
  let t := p.ltr.tracks.get i
  if t.tracked && !t.lost then
    let t' := t.lose.settleCombined
    let p1 := { p with ltr.tracks := p.ltr.tracks.set i t' }
    let p2 :=
      if t'.combined = t.combined then p1
      else
        { p1 with free := p1.free + 1 }.addEntry .loopState i.val
          (loopStateValue t'.combined t.combined + 65536 * (Config.freeByte p1.free).toNat + 16777216)
    p2.requestWalk .wireLost i.val i.val
  else p

/-- The coil-stale effect (R50). -/
def Part.coilStale (p : Part) : Part :=
  let p' := loopIndices.foldl (fun q i => q.staleLoop i) p
  if anyChange p.ltr.tracks p'.ltr.tracks then p'.triggerEval else p'

end Sys2Proof.Machine
end

