-- ==== Sys2Proof/Machine/Return.lean ====
section
/-! DEFINITION. The return unit's operations: applying a crossing to the home-path stack, planning a leg,
and counting contact (R159 to R172). -/

namespace Sys2Proof.Machine

/-! ### The home-path stack (R159 to R161) -/

/-- Begin applying the oldest crossing when no application is in progress (R159); while a leg is planned, it
waits in the list (R163). The entry of the zone left is asked for first (log 54: DESIGN CHOICE). -/
def Part.beginApplying (p : Part) : Part :=
  match p.rtu.applying, p.rtu.planning, p.rtu.crossings with
  | none, none, c :: rest =>
    { p with rtu.crossings := rest, rtu.applying := some ⟨c, .leaving⟩ }
      |>.requestRead .crossing .zone c.leaving .returning
  | _, _, _ => p

/-- Push a crossing; a full stack first loses its bottom entry (R161). -/
def Part.pushCrossing (c : Crossing) (p : Part) : Part :=
  if p.rtu.stack.length < Config.stackPlaces then { p with rtu.stack := c :: p.rtu.stack }
  else
    let p' := { p with rtu.stack := c :: p.rtu.stack.dropLast }
    match p.rtu.stack.getLast? with
    | some bottom => p'.routeLost bottom
    | none => p'

/-- What a crossing does to the stack by the ranks of the zone left and the zone entered (R160). -/
def Part.applyCrossing (c : Crossing) (leaving entering : Nat) (p : Part) : Part :=
  if leaving < entering then p.pushCrossing c
  else
    match p.rtu.stack with
    | top :: rest =>
      if top.entering = c.leaving ∧ (entering < leaving ∨ top.leaving = c.entering) then
        { p with rtu.stack := rest }
      else if entering < leaving then p
      else p.pushCrossing c
    | [] => if entering < leaving then p else p.pushCrossing c

/-- The home rank of a zone entry as read, where it can be used. -/
def usableRank (result : Option (List Int)) : Option Nat :=
  match result with
  | some v => if (zoneEntryOf v).valid then some (zoneEntryOf v).rank else none
  | none => none

/-- A read of the application has completed (R159). The entry of the zone entered is asked for when that of the
zone left has been read (log 54: DESIGN CHOICE), also where that one cannot be used (log 20). -/
def Part.crossingRead (result : Option (List Int)) (p : Part) : Part :=
  match p.rtu.applying with
  | none => p
  | some a =>
    match a.stage with
    | .leaving =>
      { p with rtu.applying := some { a with stage := .entering (usableRank result) } }
        |>.requestRead .crossing .zone a.crossing.entering .returning
    | .entering rank =>
      let p' := { p with rtu.applying := none, agenda.returning := true }
      match rank, usableRank result with
      | some r1, some r2 => if p.fcu.mode = .docked then p' else p'.applyCrossing a.crossing r1 r2
      | _, _ => p'

/-! ### Leg planning (R163 to R165) -/

/-- The start zone of a planning (R164 step 1). -/
def Ltr.startZone (l : Ltr) : Option Nat :=
  match l.zone with
  | some z => some z
  | none => l.lastZone

/-- Begin planning a leg when it is due and nothing stands before it (R163). -/
def Part.beginPlanning (p : Part) : Part :=
  if p.rtu.planDue && p.fcu.mode == .homing && p.rtu.planning.isNone && p.rtu.crossings.isEmpty &&
      p.rtu.applying.isNone then
    let p' := { p with rtu.planDue := false, rtu.leg := none }
    match p.ltr.startZone with
    | none => p'.homingFailed
    | some z =>
      { p' with rtu.planning := some ⟨z, .settings⟩ }.requestRead .planning .settings 0 .returning
  else p

/-- Planning reads its next entry. -/
def Part.planOn (pl : Planning) (stage : PlanStage) (t : Table) (i : Nat) (p : Part) : Part :=
  { p with rtu.planning := some { pl with stage := stage } }.requestRead .planning t i .returning

/-- The planning ends; a crossing that has waited for that begins its application (R159, R163). -/
def Part.endPlanning (p : Part) : Part := { p with rtu.planning := none, agenda.returning := true }

/-- The planning ends with homing failed (R164). -/
def Part.planFailed (p : Part) : Part := p.endPlanning.homingFailed

/-- The leg is made (R164 step 7, R165). -/
def Part.makeLeg (pl : Planning) (search index target : Nat) (e : PassageEntry) (p : Part) : Part :=
  p.endPlanning.takeSerial.beginLeg
    { key := p.serial, passage := index, start := pl.start, target := target, guideLoop := e.guideLoop
      interior := e.interior, offset := e.target, speed := e.speed, holdThrough := e.holdThrough
      follow := false, distance := 0, search := search }

/-- The passage of a leg that follows the stack's top entry, if that entry leads into the start zone, else
the zone's home link, is to be read (R164 steps 3 and 4). -/
def Part.planFrom (pl : Planning) (search : Nat) (p : Part) : Part :=
  match p.rtu.stack with
  | top :: _ =>
    if top.entering = pl.start then
      p.planOn pl (.passage search top.passage (.stack top.leaving)) .passage top.passage
    else p.planOn pl (.startZone search) .zone pl.start
  | [] => p.planOn pl (.startZone search) .zone pl.start

/-- The target zone of a home link from a zone (R164 step 5). -/
def PassageEntry.otherZone (e : PassageEntry) (z : Nat) : Option Nat :=
  if e.zoneA = z then some e.zoneB else if e.zoneB = z then some e.zoneA else none

/-- The passage entry of a planning has been read (R164 steps 5 to 7). A target zone that is no zone is
absent without a read (log 13). -/
def Part.planPassage (pl : Planning) (search index : Nat) (via : Via) (e : PassageEntry) (p : Part) : Part :=
  if !e.valid then p.planFailed
  else
    match via with
    | .stack target =>
      if e.joins pl.start target then p.makeLeg pl search index target e else p.planFailed
    | .link rank =>
      match e.otherZone pl.start with
      | some target =>
        if target < 24 then p.planOn pl (.targetZone search index e target rank) .zone target
        else p.planFailed
      | none => p.planFailed

/-- A read of the planning has completed (R164). -/
def Part.planRead (result : Option (List Int)) (p : Part) : Part :=
  match p.rtu.planning with
  | none => p
  | some pl =>
    match pl.stage with
    | .settings =>
      let v := result.getD (defaultFields .settings)
      if settingOf v 22 = pl.start then p.endPlanning.enterDocking
      else p.planFrom pl (settingOf v 26)
    | .startZone search =>
      match result with
      | none => p.planFailed
      | some v =>
        match (zoneEntryOf v).valid, (zoneEntryOf v).homeLink with
        | true, some link =>
          p.planOn pl (.passage search link (.link (zoneEntryOf v).rank)) .passage link
        | _, _ => p.planFailed
    | .passage search index via =>
      match result with
      | none => p.planFailed
      | some v => p.planPassage pl search index via (passageEntryOf v)
    | .targetZone search index e target rank =>
      match usableRank result with
      | some r => if r < rank then p.makeLeg pl search index target e else p.planFailed
      | none => p.planFailed

/-- The Return Unit's beginnings in an event: the next crossing, and then a leg that is due. -/
def Part.returnPass (p : Part) : Part := p.beginApplying.beginPlanning

/-! ### Contact (R169, R170, R172) -/

/-- Contact at or above the threshold in APPROACH: the settle count rises, and confirms at its limit
(R169). -/
def Part.contactSeen (p : Part) : Part :=
  let settle := if p.rtu.finalApproach then saturate 15 (p.rtu.settle + 1) else 1
  let p' := { p with rtu.finalApproach := true, rtu.settle := settle }.markMotion
  if p.rtu.params.settle ≤ settle then p'.contactConfirmed else p'

/-- An environment frame is counted (R169, R172). -/
def Part.countContact (contact : Nat) (p : Part) : Part :=
  match p.fcu.mode with
  | .docking =>
    if p.rtu.activity = .approach then
      if p.rtu.params.threshold ≤ contact then p.contactSeen
      else if p.rtu.finalApproach then p.attemptFailed 1
      else p
    else p
  | .docked =>
    if p.rtu.params.threshold ≤ contact then { p with rtu.settle := 0 }
    else
      let settle := saturate 15 (p.rtu.settle + 1)
      let p' := { p with rtu.settle := settle }
      if p.rtu.params.settle ≤ settle then p'.contactLost contact else p'
  | .idle | .run | .maneuver | .homing | .halted | .safe => p

/-- The environment node becomes stale: in final approach the attempt fails (R170). -/
def Part.environmentStale (p : Part) : Part :=
  if p.rtu.finalApproach then p.attemptFailed 2 else p

end Sys2Proof.Machine
end

