-- ==== Sys2Proof/Machine/Store.lean ====
section
/-! DEFINITION. The table store: what the words of an access come to, the error log, poisoning and
TABLE_FAULT, applied writes, and the arbiter (R176 to R189). -/

namespace Sys2Proof.Machine

/-! ### Errors (R180 to R187) -/

/-- An error of an access: its word, its syndrome, the flags it sets, whether it was handled as
uncorrectable, and what it does to the location (R187). -/
structure FoundError where
  word : Nat
  syndrome : BitVec 7
  single : Bool
  uncorrectable : Bool
  capturable : Bool
  deriving DecidableEq, Repr

/-- Whether an error's location is captured (R187). -/
def ErrorLog.captures (l : ErrorLog) (e : FoundError) : Bool :=
  e.capturable && (e.uncorrectable || !l.uncorrectable)

/-- The log after an error (R187). An uncorrectable error in TEST makes a location absent that is not an
uncorrectable capture. -/
def ErrorLog.add (l : ErrorLog) (e : FoundError) (reader : Reader) : ErrorLog where
  single := l.single || e.single
  uncorrectable := l.uncorrectable || e.uncorrectable
  location :=
    if l.captures e then
      some { table := (wordPlace e.word).1, entry := (wordPlace e.word).2.1,
             wordIndex := (wordPlace e.word).2.2, word := e.word, syndrome := e.syndrome,
             reader := reader, uncorrectable := e.uncorrectable }
    else if e.uncorrectable && !e.capturable then
      l.location.filter (·.uncorrectable)
    else l.location

/-- An error is logged, with its STORE entry (R187). -/
def Part.logError (reader : Reader) (e : FoundError) (p : Part) : Part :=
  { p with tst.log := p.tst.log.add e reader }.addEntry .store e.word
    (e.syndrome.toNat + 256 * reader.code + (if e.uncorrectable then 65536 else 0) +
      (if p.tst.log.captures e then 131072 else 0))

/-- The errors of an access are logged in word order. -/
def Part.logErrors (reader : Reader) : List FoundError → Part → Part
  | [], p => p
  | e :: es, p => (p.logError reader e).logErrors reader es

/-- An open entry is poisoned (R183). The evaluation's own read does not trigger another (R62). -/
def Part.poison (t : Table) (i : Nat) (reader : Reader) (own : Bool) (p : Part) : Part :=
  if p.tst.poisoned.get t i then p
  else
    let p' := { p with tst.poisoned := p.tst.poisoned.put t i true, agenda.blade := true }
      |>.addEntry .poisoned (256 * t.code + i) reader.code
    if t = .zone ∧ ¬ own then p'.triggerEval else p'

/-- TABLE_FAULT (R184). -/
def Part.tableFault (p : Part) : Part := p.enterSafe .tableFault

/-- How a word is treated by a read: its error, if it has one, and its data, if it can be used. -/
structure WordFinding where
  error : Option FoundError
  data : Option (BitVec 32)
  deriving DecidableEq, Repr

/-- A word of an entry read, by store mode and region (R180 to R182). In DETECT_ONLY both flags are set for
an uncorrectable word too (R181, log 17). -/
def readWord (m : StoreMode) (isProtected : Bool) (n : Nat) (w : StoredWord) : WordFinding :=
  match w.judge with
  | .clean d => ⟨none, some d⟩
  | .single d =>
    if m = .detectOnly ∧ ¬ isProtected then ⟨some ⟨n, w.syndrome, true, true, true⟩, none⟩
    else ⟨some ⟨n, w.syndrome, true, false, m ≠ .test ∨ isProtected⟩, some d⟩
  | .uncorrectable =>
    ⟨some ⟨n, w.syndrome, decide (m = .detectOnly ∧ ¬ isProtected), true, m ≠ .test ∨ isProtected⟩, none⟩

/-- The words of an entry read, from a word number on. -/
def readWords (m : StoreMode) (isProtected : Bool) : Nat → List StoredWord → List WordFinding
  | _, [] => []
  | n, w :: ws => readWord m isProtected n w :: readWords m isProtected (n + 1) ws

/-- The errors found, in word order. -/
def findingErrors (fs : List WordFinding) : List FoundError := fs.filterMap (·.error)

/-- The data of every word, when each can be used. -/
def findingData : List WordFinding → Option (List (BitVec 32))
  | [] => some []
  | f :: fs =>
    match f.data, findingData fs with
    | some d, some ds => some (d :: ds)
    | _, _ => none

/-! ### Results to their owners -/

/-- The settings values that the settings read after a reset gives to the working copies (R137, R175,
R197), or that an applied settings write gives (R175). The shaper's copy of the maneuver speed is among them
(log 46). -/
def Part.loadCopies (v : List Int) (p : Part) : Part :=
  let four := fun (c : ClassBuffer) (at' : Nat) =>
    { c with batch := settingOf v at', holdLimit := settingOf v (at' + 1), quietLimit := settingOf v (at' + 2) }
  { p with
    fcu.keepLimit := settingOf v 0
    fcu.silentAction := if settingOf v 1 = 0 then .halt else .home
    ltr.spacing := settingOf v 2
    sq.refillMark := settingOf v 3
    msh.kilotick := settingOf v 14
    msh.maneuverSpeed := settingOf v 11
    sin.limits := ⟨settingOf v 17, settingOf v 18, settingOf v 19, settingOf v 20, settingOf v 21⟩
    rtu.copies := dockParamsOf v
    nco.urgentLevel := settingOf v 32
    nco.classes :=
      ⟨four p.nco.classes.motion 33, four p.nco.classes.hazard 36, four p.nco.classes.field 39,
       four p.nco.classes.store 42⟩ }

/-- The scrub's copy takes a period and its timer is started with it (R188). -/
def Part.loadScrub (period : Nat) (p : Part) : Part :=
  { p with tst.scrubPeriod := period, tst.scrubTimer := Timer.startUnlessZero period }

/-- What an applied settings write gives every block (R131, R175, R188). -/
def Part.settingsWritten (v : List Int) (p : Part) : Part :=
  ({ p with dbm.responseLimit := settingOf v 15, dbm.holdLimit := settingOf v 16 }.loadCopies v).loadScrub
    (settingOf v 45)

/-- What follows an applied write of an entry with the values it then holds (R16, R62, R178). -/
def Part.entryWritten (t : Table) (i : Nat) (v : List Int) (p : Part) : Part :=
  match t with
  | .loopCode | .rule | .passage => p
  | .zone =>
    let p' :=
      if p.ltr.zone = some i then { p with fcu.zoneBladeMax := (zoneEntryOf v).bladeMax, agenda.blade := true }
      else p
    p'.triggerEval
  | .settings => p.settingsWritten v

/-! ### Writes (R185, R186) -/

/-- A word as a write stores it: generated check bits, or the test pattern for an open entry in TEST. -/
def writtenWord (s : Tst) (m : StoreMode) (t : Table) (data : BitVec 32) : StoredWord :=
  if m = .test ∧ ¬ t.isProtected then ⟨data, s.pattern⟩ else generatedWord data

/-- A word of the read portion of a partial write (R186): its error, and its data where the write can go
on. -/
def mergeWord (m : StoreMode) (isProtected : Bool) (n : Nat) (w : StoredWord) : WordFinding :=
  if m = .test ∧ ¬ isProtected then ⟨none, some w.data⟩
  else
    match w.judge with
    | .clean d => ⟨none, some d⟩
    | .single d => ⟨some ⟨n, w.syndrome, true, decide (m = .detectOnly ∧ ¬ isProtected), true⟩, some d⟩
    | .uncorrectable => ⟨none, none⟩

/-- The read portion: the words that the mask touches are checked, the others only looked at for the fields
that no write of this mask changes. -/
def mergeWords (m : StoreMode) (isProtected : Bool) (first : Nat) (touched : List Nat) :
    Nat → List StoredWord → List WordFinding
  | _, [] => []
  | i, w :: ws =>
    (if touched.contains i then mergeWord m isProtected (first + i) w else ⟨none, some w.data⟩) ::
      mergeWords m isProtected first touched (i + 1) ws

/-- The checks of a partial write that depend on stored fields, on the entry as it would stand (R57, R60,
R97, R141), made wherever the write reads the word that holds them (R186). -/
def mergedOk (t : Table) (mask : BitVec 64) (v : List Int) : Bool :=
  match t with
  | .loopCode => true
  | .rule => !(named mask 14) || valueAt v 9 != 1 || decide (valueAt v 14 ≤ 2)
  | .zone => !(named mask 4 || named mask 5) || decide (valueAt v 4 < valueAt v 5)
  | .passage => !(touchedWords .passage mask).contains 0 || valueAt v 1 != valueAt v 2
  | .settings => decide (valueAt v 5 < valueAt v 6)

/-- What a partial write comes to (R186). -/
inductive PartialOutcome
  | storeError
  | badValue (errors : List FoundError)
  | written (errors : List FoundError) (words : List (Nat × StoredWord)) (values : List Int)
  deriving DecidableEq, Repr

/-- The outcome of a partial write on the words of its entry (R186). In TEST, where errors are ignored, the
checks of an open entry are made on the data as it is merged, uncorrected (log 42). The words written are packed
anew from the fields, so that data bits that no field holds are written 0 (R174, log 45). -/
def partialOutcome (s : Tst) (m : StoreMode) (t : Table) (i : Nat) (mask : BitVec 64) (fields : List Int)
    (words : List StoredWord) : PartialOutcome :=
  let touched := touchedWords t mask
  let found := mergeWords m t.isProtected (wordNumber t i 0) touched 0 words
  match findingData found with
  | none => .storeError
  | some data =>
    let v := entryAfter t mask (entryFields t data) fields
    if mergedOk t mask v then
      let new := entryWords t v
      .written (findingErrors found) (touched.map fun w => (w, writtenWord s m t (new.getD w 0))) v
    else .badValue (findingErrors found)

/-- The words of a full-entry write (R185). -/
def fullWords (s : Tst) (m : StoreMode) (t : Table) (fields : List Int) : List (Nat × StoredWord) :=
  (entryWords t fields).zipIdx.map fun dw => (dw.2, writtenWord s m t dw.1)

/-! ### The arbiter (R177, R178) -/

/-- The waiting request that is granted next: of the lowest class, and the one that has waited longest. -/
def nextRequest : List Request → Option Request
  | [] => none
  | q :: qs =>
    match nextRequest qs with
    | none => some q
    | some r => if r.grantClass < q.grantClass then some r else some q

/-- A write of the planner's to the protected region in a mode that refuses it (R178). -/
def Request.modeRefused (q : Request) (m : Mode) : Bool :=
  match q.kind with
  | .fullWrite t _ _ | .partialWrite t _ _ _ =>
    q.owner == .planner && t.isProtected && !m.permitsProtected
  | .entryRead _ _ | .scrub _ => false

/-- A scrub access in a store mode that suspends it (R189). -/
def Request.scrubWithdrawn (q : Request) (m : StoreMode) : Bool :=
  match q.kind with
  | .scrub _ => m != .normal
  | .entryRead .. | .fullWrite .. | .partialWrite .. => false

end Sys2Proof.Machine
end

