-- ==== Sys2Proof/Machine/Port.lean ====
section
/-! DEFINITION. The planner link port: answers, the taking of a frame with its checks, the requests of
every kind, and the operations that a request in hand becomes (R4 to R9, R72 to R74, R84, R179, R191 to
R199). -/

namespace Sys2Proof.Machine

/-! ### Answers and operations (R193) -/

/-- The frame whose request is in hand. -/
def Plp.inHand (l : Plp) : Option RxFrame := l.rx.find? fun f => f.status == .inHand

/-- The request in hand is answered: its ANSWER joins the transmit list (R193). -/
def Part.answer (code : AnswerCode) (data : List Byte) (p : Part) : Part :=
  match p.plp.inHand with
  | some f =>
    { p with
      plp.rx := p.plp.rx.map fun g => if g.status = .inHand then { g with status := .answered } else g
      plp.op := none
      plp.tx := p.plp.tx ++ [.answer f.tag code data]
      agenda.port := true }
  | none => p

/-- The request in hand goes on as an operation with a store read (R193). -/
def Part.plannerRead (op : PlannerOp) (t : Table) (i : Nat) (reader : Reader) (p : Part) : Part :=
  { p with plp.op := some op }.requestRead .planner t i reader

/-! ### STATUS (R194, section 10.5) -/

def LoopTrack.statusBytes (t : LoopTrack) : List Byte :=
  byte t.combined.code :: signed2 t.offset ++ [byte t.age]

/-- The STATUS record, 51 bytes (section 10.5). Byte 7 shows the arm-refused mark in every blade state
(log 39). -/
def Part.statusData (p : Part) : List Byte :=
  [byte p.fcu.mode.code, byte (match p.fcu.resume with
      | some r => r.mode.code
      | none => 255),
   byte p.fcu.stopCause.code, byte p.fcu.stopCause.rule, byte p.fcu.hazardLevel,
   byte p.fcu.blade.code, byte p.fcu.blade.level, flag p.fcu.armRefused,
   flag p.fcu.permission, flag p.fcu.keepSilent, byte (zoneCode p.ltr.zone),
   byte (zoneCode p.ltr.lastZone), byte p.sq.queue.length] ++
  p.ltr.tracks.toList.flatMap LoopTrack.statusBytes ++
  [byte (p.node 0).standing.code, byte (p.node 1).standing.code, byte (p.node 2).standing.code,
   byte p.tst.mode.code, flag p.tst.log.single, flag p.tst.log.uncorrectable]

/-! ### MODE (R4 to R9) -/

/-- A MODE request taken is answered OK with the mode code. -/
def Part.modeOk (p : Part) : Part := p.answer .ok [byte p.fcu.mode.code]

/-- MODE RUN is taken in IDLE and DOCKED, and so is MODE HOME (R4). -/
def Mode.takesStart (m : Mode) : Bool := m == .idle || m == .docked

/-- The entry checks of R5 begin. -/
def Part.beginCheck (home : Bool) (p : Part) : Part :=
  p.plannerRead (.entryCheck home (.loops 0 [])) .loopCode 0 .plannerRead

/-- MODE RUN (R4, R5). -/
def Part.modeRun (p : Part) : Part :=
  if p.fcu.mode.takesStart then p.beginCheck false else p.answer .wrongMode []

/-- MODE HOME (R4, R5, R7): in DOCKED it changes nothing. -/
def Part.modeHome (p : Part) : Part :=
  match p.fcu.mode with
  | .idle => p.beginCheck true
  | .docked => p.modeOk
  | .run | .maneuver | .homing | .docking | .halted | .safe => p.answer .wrongMode []

/-- MODE IDLE (R4, R8). -/
def Part.modeIdle (p : Part) : Part :=
  if p.fcu.mode.moving then
    let p' := p.enterStop .idle (some .command) true
    { p' with rtu.attempts := 0 }.modeOk
  else p.answer .wrongMode []

/-- MODE CLEAR (R4, R9). -/
def Part.modeClear (p : Part) : Part :=
  if p.fcu.mode = .halted then (p.enterStop .idle none false).modeOk else p.answer .wrongMode []

/-- A MODE request with a carried code (R4, R194). -/
def Part.modeRequest (code : Nat) (p : Part) : Part :=
  match code with
  | 0 => p.modeRun
  | 1 => p.modeIdle
  | 2 => p.modeHome
  | 3 => p.modeClear
  | _ => p.answer .badValue []

/-- The combined state of a loop is IN (R5 check 3). -/
def Ltr.insideAt (l : Ltr) (k : Nat) : Bool :=
  match loopIndices[k]? with
  | some i => (l.tracks.get i).combined == .inside
  | none => false

/-- The checks of R5 behind the tables, then the mode test again on the mode as it stands (log 8), and the
entry into HOMING or RUN (R6, R7). -/
def Part.finishCheck (home : Bool) (perimeter : Nat) (p : Part) : Part :=
  if p.tst.mode ≠ .normal then p.answer .storeTest []
  else if !home && !p.ltr.insideAt perimeter then p.answer .notInside []
  else if home then
    if p.fcu.mode = .idle then p.enterHoming.modeOk else p.answer .wrongMode []
  else if p.fcu.mode.takesStart then p.enterRun.modeOk
  else p.answer .wrongMode []

/-- A zone entry as read is valid. -/
def zoneUsable (result : Option (List Int)) : Bool :=
  match result with
  | some v => (zoneEntryOf v).valid
  | none => false

/-- The loops have been read: exactly one is a valid PERIMETER loop (R5 check 1). -/
def Part.loopsChecked (home : Bool) (perimeters : List Nat) (p : Part) : Part :=
  match perimeters with
  | [k] => p.plannerRead (.entryCheck home (.zones 0 k)) .zone 0 .plannerRead
  | _ => p.answer .tablesIncomplete []

/-- A read of the entry checks has completed (R5). -/
def Part.checkRead (home : Bool) (stage : CheckStage) (result : Option (List Int)) (p : Part) : Part :=
  match stage with
  | .loops i found =>
    match result with
    | none => p.answer .tablesIncomplete []
    | some v =>
      let e := loopEntryOf v
      let found' := if e.valid && e.role == .perimeter then found ++ [i] else found
      if i + 1 < 8 then
        p.plannerRead (.entryCheck home (.loops (i + 1) found')) .loopCode (i + 1) .plannerRead
      else p.loopsChecked home found'
  | .zones i k =>
    if zoneUsable result then p.plannerRead (.entryCheck home (.settings k)) .settings 0 .plannerRead
    else if i + 1 < 24 then
      p.plannerRead (.entryCheck home (.zones (i + 1) k)) .zone (i + 1) .plannerRead
    else p.answer .tablesIncomplete []
  | .settings k =>
    match result with
    | none => p.answer .tablesIncomplete []
    | some v =>
      if settingOf v 22 < 24 then
        p.plannerRead (.entryCheck home (.dockZone k)) .zone (settingOf v 22) .plannerRead
      else p.answer .tablesIncomplete []
  | .dockZone k =>
    if zoneUsable result then p.finishCheck home k else p.answer .tablesIncomplete []

/-! ### PLAN_APPEND and PLAN_FLUSH (R72 to R74, R84) -/

/-- The modes in which an append is taken (R72 check 1). -/
def Fcu.takesAppend (f : Fcu) : Bool := f.planned || f.mode == .idle || f.mode == .docked

/-- The placement of checked segments, after the mode test again (R74). The counts answered are those behind
the markers that complete in the placement (R72, log 32). -/
def Part.placeChecked (segments : List Segment) (p : Part) : Part :=
  if p.fcu.takesAppend then
    let p' := p.place segments
    p'.answer .ok [byte p'.sq.queue.length, byte (Config.queuePlaces - p'.sq.queue.length)]
  else p.answer .wrongMode []

/-- The checks of R73 go on with those that are left. -/
def Part.appendOn (segments : List Segment) (todo : List AppendCheck) (p : Part) : Part :=
  match todo with
  | [] => p.placeChecked segments
  | .fail position :: _ => p.answer .badValue [byte position]
  | .loop _ k :: _ => p.plannerRead (.append segments todo) .loopCode k .plannerRead
  | .zone _ z :: _ => p.plannerRead (.append segments todo) .zone z .plannerRead

/-- A read of the append checks has completed (R73). -/
def Part.appendRead (segments : List Segment) (todo : List AppendCheck) (result : Option (List Int))
    (p : Part) : Part :=
  match todo with
  | .loop position _ :: rest =>
    match result with
    | some v => if (loopEntryOf v).own then p.appendOn segments rest else p.answer .badValue [byte position]
    | none => p.answer .badValue [byte position]
  | .zone position _ :: rest =>
    if zoneUsable result then p.appendOn segments rest else p.answer .badValue [byte position]
  | [] | .fail _ :: _ => p.appendOn segments todo

/-- PLAN_APPEND (R72). -/
def Part.planAppend (body : List Byte) (p : Part) : Part :=
  let count := (byteAt body 0).toNat
  let free := Config.queuePlaces - p.sq.queue.length
  if !p.fcu.takesAppend then p.answer .wrongMode []
  else if count = 0 ∨ 4 < count then p.answer .badValue [255]
  else if free < count then p.answer .queueFull [byte free]
  else
    let bodies := segmentBodies count (body.drop 1)
    p.appendOn (bodies.map SegmentBody.record) (appendChecks 0 bodies)

/-- PLAN_FLUSH (R84). -/
def Part.planFlush (p : Part) : Part := p.flush.answer .ok [byte p.sq.queue.length]

/-! ### TABLE_WRITE (R27, R57, R60, R97, R141, R162, R195) -/

/-- The loops that a carried pattern gives MUST_IN or MUST_OUT, in index order, from loop k on. -/
def patternLoops : Nat → List Byte → List WriteCheck
  | _, [] => []
  | k, c :: cs => if c = 0 then patternLoops (k + 1) cs else .loop k true :: patternLoops (k + 1) cs

/-- A check that has failed, as a list of what is left to check. -/
def failUnless (ok : Bool) : List WriteCheck := if ok then [] else [.fail]

/-- The checks of a table's own rule behind the index and the mode, in order: what fails without a read, and
the reads that the others need. Orderings of a partial write are checked within its access (R186). -/
def writeChecks (t : Table) (mask : BitVec 64) (block : List Byte) : List WriteCheck :=
  let v := carriedValues t block
  let c := clampedValues t block
  let full := fullMask t mask
  let range := fun q => failUnless (namedInRange t mask v q)
  match t with
  | .loopCode =>
    range 1 ++ range 3 ++ failUnless (!named mask 2 || chipsOk ((block.drop 4).take 32))
  | .rule =>
    range 1 ++ range 2 ++ range 6 ++ range 9 ++
      failUnless (!(named mask 9 && named mask 14 && valueAt v 9 == 1) || inRange t v 14)
  | .zone =>
    range 6 ++ range 7 ++
      (if named mask 1 then
        failUnless (patternOk ((block.drop 2).take 8)) ++ patternLoops 0 ((block.drop 2).take 8)
       else []) ++
      failUnless (!full || decide (valueAt c 4 < valueAt c 5))
  | .passage =>
    range 1 ++ range 2 ++ failUnless (!full || valueAt v 1 != valueAt v 2) ++ range 4 ++ range 3 ++
      (if named mask 3 then [.loop (valueAt v 3).toNat false] else [])
  | .settings =>
    range 22 ++ range 23 ++ (if named mask 23 then [.loop (valueAt v 23).toNat false] else []) ++
      range 24 ++ failUnless (!full || decide (valueAt c 5 < valueAt c 6))

/-- The write goes to the store as one access (R177). -/
def Part.writeOn (t : Table) (i : Nat) (mask : BitVec 64) (fields : List Int) (p : Part) : Part :=
  { p with plp.op := some (.writing t i) }.request .planner
    (if fullMask t mask then .fullWrite t i fields else .partialWrite t i mask fields) .plannerWrite

/-- The checks of a write go on with those that are left. -/
def Part.checkWrite (t : Table) (i : Nat) (mask : BitVec 64) (fields : List Int) (todo : List WriteCheck)
    (p : Part) : Part :=
  match todo with
  | [] => p.writeOn t i mask fields
  | .fail :: _ => p.answer .badValue []
  | .loop k _ :: _ => p.plannerRead (.tableWrite t i mask fields todo) .loopCode k .plannerWrite

/-- A loop that a write refers to is valid with a role it may have (R57, R60, R162). -/
def loopReferable (islandAllowed : Bool) (result : Option (List Int)) : Bool :=
  match result with
  | some v =>
    let e := loopEntryOf v
    e.valid && (e.role == .guide || e.role == .perimeter || (islandAllowed && e.role == .island))
  | none => false

/-- A check read of a write has completed (R57, R60). The loops of a pattern are read in index order, and the first
that fails ends the reads (log 43). -/
def Part.writeCheckRead (t : Table) (i : Nat) (mask : BitVec 64) (fields : List Int)
    (todo : List WriteCheck) (result : Option (List Int)) (p : Part) : Part :=
  match todo with
  | .loop _ islandAllowed :: rest =>
    if loopReferable islandAllowed result then p.checkWrite t i mask fields rest
    else p.answer .badValue []
  | [] | .fail :: _ => p.checkWrite t i mask fields todo

/-- TABLE_WRITE (R195): the mask, then the index, for settings the silent action, for a protected table the
mode, then the table's own checks. -/
def Part.tableWrite (t : Table) (body : List Byte) (p : Part) : Part :=
  let i := (byteAt body 1).toNat
  let mask := maskOf body
  let block := body.drop 10
  if !maskOk t mask then p.answer .badValue []
  else if t.entries ≤ i then p.answer .badIndex []
  else if t = .settings ∧ ¬ namedInRange t mask (carriedValues t block) 1 then p.answer .badValue []
  else if t.isProtected && !p.fcu.mode.permitsProtected then p.answer .wrongMode []
  else p.checkWrite t i mask (clampedValues t block) (writeChecks t mask block)

/-! ### TABLE_READ, STORE_CONTROL, COLLECT (R179, R183, R194, R199) -/

/-- TABLE_READ (R194). -/
def Part.tableRead (t : Table) (i : Nat) (p : Part) : Part :=
  if i < t.entries then p.plannerRead (.tableRead t i) t i .plannerRead else p.answer .badIndex []

/-- The read of a TABLE_READ has completed (R183, R194). -/
def Part.tableReadDone (t : Table) (i : Nat) (result : Option (List Int)) (p : Part) : Part :=
  let head := [byte t.code, byte i, flag (p.tst.poisoned.get t i)]
  match result with
  | some v => p.answer .ok (head ++ valueBlock t v)
  | none => p.answer .storeError head

/-- The location part of a STORE_CONTROL answer. -/
def locationBytes (l : Option Location) : List Byte :=
  match l with
  | some l =>
    [1, byte l.table.code, byte l.entry, byte l.wordIndex] ++ bytes2 l.word ++
      [byte l.syndrome.toNat, byte l.reader.code, flag l.uncorrectable]
  | none => [0, 0, 0, 0, 0, 0, 0, 0, 0]

/-- The capture part of a STORE_CONTROL answer. The table and entry bytes of an empty capture are free
values (log 11). -/
def captureBytes (free : Nat) (c : Option Capture) : List Byte :=
  match c with
  | some c =>
    [byte c.table.code, byte c.entry, byte c.words.length] ++
      c.words.flatMap fun w => [byte w.1, byte w.2.toNat]
  | none => [Config.freeByte free, Config.freeByte (free + 1), 0]

/-- A STORE_CONTROL that has passed its checks (R179). -/
def Part.controlStore (parts : Byte) (m : StoreMode) (pattern : Nat) (p : Part) : Part :=
  let log := p.tst.log
  let tst := { p.tst with
    pattern := if parts.getLsbD 1 then BitVec.ofNat 7 pattern else p.tst.pattern
    mode := if parts.getLsbD 0 then m else p.tst.mode
    log := if parts.getLsbD 2 then {} else log }
  { p with tst := tst, free := if tst.capture.isNone then p.free + 2 else p.free }.answer .ok
    ([byte tst.mode.code, byte tst.pattern.toNat, flag log.single, flag log.uncorrectable] ++
      locationBytes log.location ++ captureBytes p.free tst.capture)

/-- STORE_CONTROL (R179). The parts byte's upper bits name no part and are not looked at (log 18). -/
def Part.storeControl (parts mode pattern : Byte) (p : Part) : Part :=
  let m := if parts.getLsbD 0 then StoreMode.ofCode mode else some .normal
  match m with
  | none => p.answer .badValue []
  | some m =>
    if parts.getLsbD 1 ∧ 127 < pattern.toNat then p.answer .badValue []
    else if parts.getLsbD 0 ∧ m ≠ .normal ∧ p.fcu.mode.moving then p.answer .wrongMode []
    else p.controlStore parts m pattern.toNat

/-- COLLECT (R199). -/
def Part.collect (code : Byte) (p : Part) : Part :=
  match NoticeClass.ofCode code with
  | none => p.answer .badValue []
  | some c =>
    let b := p.nco.classes.get c
    { p with nco.classes := p.nco.classes.set c { b.emptied with due := false } }.answer .ok
      (byte c.code :: byte b.entries.length :: flag b.gap :: entriesBytes b.entries)

/-- RESTART is answered OK; the reset takes effect when the answer has been sent (R21, R194). -/
def Part.restartRequest (p : Part) : Part := { p.answer .ok [] with plp.restarting := true }

/-! ### Taking a frame (R193) -/

/-- A request of a kind whose body has the right length (R194). -/
def Part.handOver (kind : Nat) (body : List Byte) (p : Part) : Part :=
  match kind with
  | 0 => p.answer .ok []
  | 1 => p.answer .ok p.statusData
  | 2 => p.modeRequest (byteAt body 0).toNat
  | 3 => p.planAppend body
  | 4 => p.planFlush
  | 7 => p.storeControl (byteAt body 0) (byteAt body 1) (byteAt body 2)
  | 8 => p.collect (byteAt body 0)
  | _ => p.restartRequest

/-- The length of a kind's body, for the kinds whose owner needs no table code (R193 check 4). -/
def bodyLength (kind : Nat) (body : List Byte) : Nat :=
  match kind with
  | 2 | 8 => 1
  | 3 => 1 + 18 * (byteAt body 0).toNat
  | 7 => 3
  | _ => 0

/-- A TABLE_WRITE (kind 5) or TABLE_READ (kind 6) is taken: checks 2 to 4 of R193. -/
def Part.takeTable (isWrite : Bool) (body : List Byte) (p : Part) : Part :=
  if body.isEmpty then p.answer .badFrame []
  else
    match Table.ofCode (byteAt body 0) with
    | none => p.answer .badValue []
    | some t =>
      if isWrite then
        if body.length = 10 + blockLength t then p.tableWrite t body else p.answer .badFrame []
      else if body.length = 2 then p.tableRead t (byteAt body 1).toNat
      else p.answer .badFrame []

/-- A frame taken is checked and handed to the owner of its request (R193). -/
def Part.takeFrame (kind : Byte) (body : List Byte) (p : Part) : Part :=
  if 9 < kind.toNat then p.answer .badKind []
  else if kind = 5 then p.takeTable true body
  else if kind = 6 then p.takeTable false body
  else if body.length = bodyLength kind.toNat body then p.handOver kind.toNat body
  else p.answer .badFrame []

/-- The oldest waiting frame is marked as in hand. -/
def markInHand : List RxFrame → List RxFrame
  | [] => []
  | f :: fs => if f.status = .waiting then { f with status := .inHand } :: fs else f :: markInHand fs

/-- The frame that the port takes next: the oldest waiting one, when none is in hand and no RESTART has
been answered (R193). -/
def Plp.nextFrame (l : Plp) : Option RxFrame :=
  if l.restarting || l.inHand.isSome then none else l.rx.find? fun f => f.status == .waiting

/-- A frame arrives with a CRC that matches (R19, R191, R192). -/
def Part.frameArrived (f : LinkFrame) (p : Part) : Part :=
  if !p.plp.ready then p
  else
    let p' := { p with
      plp.rx := p.plp.rx ++ [RxFrame.mk f.kind f.tag f.body .waiting]
      fcu.keepTimer := some p.fcu.keepLimit
      agenda.port := true }
    if p'.fcu.keepSilent then { p' with fcu.keepSilent := false }.addEntry .keepState 0 0 else p'

end Sys2Proof.Machine
end

