-- ==== Sys2Proof/Machine/Exchange.lean ====
section
/-! DEFINITION. The drive bus master's exchanges: the arbiter's grant, answers and their effects, losses,
silent tries, ready signals and hold limits (R112 to R132). -/

namespace Sys2Proof.Machine

/-! ### Losses and holds (R117, R120) -/

/-- A node becomes LOST (R120), and the part enters SAFE (R14). -/
def Part.loseNode (n : Fin 3) (p : Part) : Part :=
  let p1 := p.setStanding n .lost |>.mapNode n fun _ => { standing := .lost, lastPayload := (p.node n).lastPayload }
  let p2 := { p1 with dbm.resetStops := p1.dbm.resetStops.set n false }.markBus
  let p3 :=
    if n = 2 then
      { p2 with
        dbm.interlock := .none
        dbm.bus := if p2.dbm.bus = Bus.reserved then .free else p2.dbm.bus
        fcu.blade := if p2.fcu.blade = .off then .off else .stopping }
    else p2
  p3.enterSafe .nodeLost

/-- The node answers as ONLINE: the present hold ends, and what it held is offered again (R112, R117). -/
def Part.nodeOnline (n : Fin 3) (p : Part) : Part :=
  (p.setStanding n .online).mapNode n fun d =>
    { d with
      hold := none
      inHand := d.inHand.map fun e => { e with held := false }
      grant := d.grant.map fun g => { g with held := false } }

/-- The node's hold has outlasted the hold limit (R117). -/
def Node.holdPassed (d : Node) : Bool :=
  match d.hold with
  | some h => d.standing == .holding && h.left == 0
  | none => false

/-- The node holds: HOLDING, with its hold start kept or set (R112, R117). -/
def Part.nodeHolding (n : Fin 3) (p : Part) : Part :=
  (p.setStanding n .holding).mapNode n fun d =>
    { d with
      hold := match d.hold with
        | some h => some h
        | none => some { start := p.clock, left := p.dbm.holdLimit } }

/-- An answer honoured as HOLD, or a refusal that is held, for the exchange in hand (R112, R117, R118). A
superseded exchange ends dropped (R124), but the hold limit comes first: once it has passed, the node is LOST
for a superseded exchange too (R112 and R117 against R116 and R124; log 9: DESIGN CHOICE). -/
def Part.holdExchange (n : Fin 3) (p : Part) : Part :=
  let d := p.node n
  if d.holdPassed then p.loseNode n
  else if d.superseded then (p.nodeHolding n).mapNode n Node.dropExchange
  else
    (p.nodeHolding n).mapNode n fun d => { d with inHand := d.inHand.map fun e => { e with held := true } }

/-! ### The end of a try -/

/-- The bus after a try of a node has ended: reserved while the write of an arm is in hand (R115, R128). -/
def Part.tryEnded (n : Fin 3) (p : Part) : Part :=
  { p with dbm.bus := if n = 2 ∧ p.dbm.interlock = Interlock.writing then .reserved else .free }.markBus

/-- One of the three stops of a reset has ended (R132). -/
def Part.resetStopEnded (n : Fin 3) (p : Part) : Part :=
  { p with dbm.resetStops := p.dbm.resetStops.set n false }

/-- Put a try on the wire with a fresh exchange number (R113, R115). -/
def Part.putOnWire (n : Fin 3) (grant : Bool) (p : Part) : Part :=
  { p with
    dbm.number := p.dbm.number + 1
    dbm.bus := .wire n grant (p.dbm.number + 1) p.dbm.responseLimit }

/-- An arm ends without its run, and without a refusal: the interlock is NONE, the bus free (R128, R129). -/
def Part.armAtMidpoint (p : Part) : Part :=
  { p.mapNode 2 Node.dropExchange with
    dbm.interlock := .none
    dbm.bus := if p.dbm.bus = Bus.reserved then .free else p.dbm.bus }.armLapsed.markBus

/-- An arm ends: the interlock is NONE and a reserved bus is free (R127, R129). -/
def Part.armEnded (p : Part) : Part :=
  { p.mapNode 2 Node.endExchange with
    dbm.interlock := .none
    dbm.bus := if p.dbm.bus = Bus.reserved then .free else p.dbm.bus }

/-- The midpoint check (R128): without permission the arm ends; with it the bus is reserved and the BLADE_RUN
is on the wire in the same event. Permission counts as it stands, a waiting BLADE_STOP or not (R124, log 49:
DESIGN CHOICE). -/
def Part.midpoint (level : Nat) (p : Part) : Part :=
  if p.bladePermitted then
    { p.mapNode 2 fun d => { d with inHand := some { transfer := .bladeRun level }, suspended := false } with
      dbm.interlock := .writing }.putOnWire 2 false
  else p.armAtMidpoint

/-! ### Answers (R114 to R119, R121, R127 to R129) -/

/-- What a set of signals is honoured as (R116). -/
inductive Honoured
  | yielded
  | held
  | rejected
  | accepted
  deriving DecidableEq, Repr

end Sys2Proof.Machine

namespace Sys2Proof

open Machine

def Signals.honoured (s : Signals) : Honoured :=
  if s.yield then .yielded else if s.hold then .held else if s.reject then .rejected else .accepted

def Signals.any (s : Signals) : Bool := s.accept || s.hold || s.yield || s.reject

end Sys2Proof

namespace Sys2Proof.Machine

/-- A DRIVE_FAULT walk request (R118, R119, R129). -/
def Part.driveFault (n : Fin 3) (code : Nat) (p : Part) : Part := p.requestWalk .driveFault n.val code

/-- The lookahead half of an answer is judged (R121). -/
def Part.judgeLookahead (a : NodeAnswer) (p : Part) : Part :=
  match (p.node a.node).inHand with
  | some ⟨.setpoint v (some _), tries, held, refused⟩ =>
    if a.lookahead.any && a.lookahead.honoured == Honoured.accepted then p
    else
      p.mapNode a.node fun d =>
        { d with
          inHand := some ⟨.setpoint v none, tries, held, refused⟩
          reportOwed := d.reportOwed || a.lookahead.yield }
  | _ => p

/-- YIELD for the exchange in hand: the report is owed and the exchange is suspended (R119); for the write of
an arm it is treated as HOLD (R129). -/
def Part.answerYield (n : Fin 3) (p : Part) : Part :=
  if n = 2 ∧ p.dbm.interlock = Interlock.writing then
    if (p.node n).holdPassed then p.loseNode n
    else (p.mapNode n fun d => { d with reportOwed := true }).holdExchange n
  else
    (p.nodeOnline n).mapNode n fun d =>
      if d.superseded then { d.endExchange with reportOwed := true }
      else { d with reportOwed := true, suspended := true }

/-- A refusal that is held: a stop makes its walk request on its first refusal (R118). -/
def Part.refusalHeld (n : Fin 3) (code : Option Nat) (refused : Bool) (p : Part) : Part :=
  let p' := match code with
    | some c => if refused then p else p.driveFault n c
    | none => p
  (p'.mapNode n fun d => { d with inHand := d.inHand.map fun e => { e with refused := true } }).holdExchange n

/-- REJECT for the exchange in hand (R118, R127, R129). -/
def Part.answerReject (n : Fin 3) (e : Exchange) (p : Part) : Part :=
  match e.transfer with
  | .setpoint .. => ((p.nodeOnline n).mapNode n Node.endExchange).driveFault n 1
  | .stop => p.refusalHeld n (some 2) e.refused
  | .bladeStop => p.refusalHeld n (some 4) e.refused
  | .bladeStatus => p.refusalHeld n none e.refused
  | .guardRead _ => (p.nodeOnline n).armEnded.armRefused
  | .bladeRun _ => ((p.nodeOnline n).armEnded.driveFault n 3).armRefused

end Sys2Proof.Machine

namespace Sys2Proof

open Machine

/-- The payload of an answer to a transfer (R111, R113): the blade node's record holds rpm and guard status,
both carried by each of its answers (R114). -/
def NodeAnswer.payload (a : NodeAnswer) (t : Transfer) : Payload :=
  match t with
  | .setpoint .. | .stop => .ticks a.ticks
  | .guardRead _ | .bladeRun _ | .bladeStop | .bladeStatus => .blade a.rpm a.guardClosed

end Sys2Proof

namespace Sys2Proof.Machine

/-- ACCEPT for the exchange in hand: it ends done and the payload is handed on (R104, R116, R127 to R130). -/
def Part.answerAccept (a : NodeAnswer) (e : Exchange) (p : Part) : Part :=
  let n := a.node
  let p1 := (p.nodeOnline n).mapNode n fun d => { d with lastPayload := some (a.payload e.transfer) }
  match e.transfer with
  | .setpoint .. => (p1.mapNode n Node.endExchange).convertTicks n a.ticks
  | .stop => ((p1.mapNode n Node.endExchange).convertTicks n a.ticks).resetStopEnded n
  | .bladeStop => ((p1.mapNode n Node.endExchange).resetStopEnded n).bladeStopAccepted
  | .bladeStatus => (p1.mapNode n Node.endExchange).bladeStatusAccepted a.rpm
  | .guardRead level => if a.guardClosed then p1.midpoint level else p1.armEnded.armRefused
  | .bladeRun level => p1.armEnded.runAccepted level

/-- ACCEPT for a superseded exchange: it ends dropped, its payload not handed on (R124, log 9). -/
def Part.acceptSuperseded (n : Fin 3) (p : Part) : Part := (p.nodeOnline n).mapNode n Node.endExchange

/-- An answer taken for the exchange in hand (R116). -/
def Part.exchangeAnswer (a : NodeAnswer) (e : Exchange) (p : Part) : Part :=
  match a.current.honoured with
  | .yielded => p.answerYield a.node
  | .held => p.holdExchange a.node
  | .rejected => p.answerReject a.node e
  | .accepted =>
    if (p.node a.node).superseded then p.acceptSuperseded a.node else p.answerAccept a e

/-- The walk request of a report taken (R119). -/
def Part.takeReport (a : NodeAnswer) (p : Part) : Part :=
  let n := a.node
  let value := (a.reportValue.toNat : Int)
  match a.report with
  | .none => p
  | .stall => p.requestWalk (if n = 2 then .bladeCurrent else .wheelStall) n.val value
  | .overcurrent => if n = 2 then p.requestWalk .bladeCurrent n.val value else p.driveFault n 5
  | .overtemp => p.driveFault n 6
  | .encoderFault => p.driveFault n 7

/-- A grant exchange ends; the suspended exchange is offered again whole (R119). `owed` is the report owed
mark after it. An exchange in hand that is not suspended keeps its try count (R121, log 48: DESIGN CHOICE). -/
def Part.grantEnded (n : Fin 3) (owed : Bool) (p : Part) : Part :=
  p.mapNode n fun d =>
    if owed then { d with grant := none, reportOwed := true }
    else
      { d with
        grant := none
        reportOwed := false
        suspended := false
        inHand := if d.suspended then d.inHand.map fun e => { e with tries := 1 } else d.inHand }

/-- The present hold is the report grant's, and the grant waits. An exchange in hand that was not itself answered
HOLD goes on being offered meanwhile, though R117 says that a holding node's exchange in hand waits (R117, R119;
log 52: DESIGN CHOICE). -/
def Node.grantHolds (d : Node) : Node :=
  { d with
    grant := d.grant.map fun g => { g with held := true }
    hold := d.hold.map fun h => { h with grant := true } }

/-- An answer taken for a report grant (R119). It leaves the node's last payload (R111, log 36). -/
def Part.grantAnswer (a : NodeAnswer) (p : Part) : Part :=
  let n := a.node
  match a.current.honoured with
  | .yielded => ((p.nodeOnline n).takeReport a).grantEnded n true
  | .accepted => ((p.nodeOnline n).takeReport a).grantEnded n false
  | .rejected => (p.nodeOnline n).grantEnded n false
  | .held =>
    if (p.node n).holdPassed then p.loseNode n
    else (p.nodeHolding n).mapNode n Node.grantHolds

/-- The DBM takes an answer (R114): a try is on the wire, for this node, with this number, and the answer
passes the frame check and carries a signal. The result says whether the try is a report grant. -/
def Dbm.takes (d : Dbm) (a : NodeAnswer) : Option Bool :=
  match d.bus with
  | .wire n grant number _ =>
    if n = a.node ∧ number = a.number ∧ a.frameOk ∧ a.current.any then some grant else none
  | .free | .reserved => none

/-- An answer arrives (R114, R116). -/
def Part.nodeAnswered (a : NodeAnswer) (p : Part) : Part :=
  match p.dbm.takes a with
  | none => p
  | some true => (p.tryEnded a.node).grantAnswer a
  | some false =>
    match (p.node a.node).inHand with
    | none => p.tryEnded a.node
    | some _ =>
      let p' := (p.tryEnded a.node).judgeLookahead a
      match (p'.node a.node).inHand with
      | some e => p'.exchangeAnswer a e
      | none => p'

/-! ### Silent tries (R115) -/

/-- The response timer of the try on the wire expires (R115, R124). -/
def Part.responseTimedOut (p : Part) : Part :=
  match p.dbm.bus with
  | .free | .reserved => p
  | .wire n true _ _ =>
    let p' := p.tryEnded n
    match (p.node n).grant with
    | none => p'
    | some g =>
      if 3 ≤ g.tries then p'.loseNode n
      else p'.mapNode n fun d => { d with grant := some { g with tries := g.tries + 1 } }
  | .wire n false _ _ =>
    let p' := p.tryEnded n
    match (p.node n).inHand with
    | none => p'
    | some e =>
      if 3 ≤ e.tries then p'.loseNode n
      else if (p.node n).superseded then p'.mapNode n Node.dropExchange
      else p'.mapNode n fun d => { d with inHand := some { e with tries := e.tries + 1 } }

/-! ### Holds (R117) -/

/-- What a node holds is offered again. -/
def Node.offerHeld (d : Node) : Node :=
  { d with
    inHand := d.inHand.map fun e => { e with held := false }
    grant := d.grant.map fun g => { g with held := false } }

/-- A ready signal (R117). -/
def Part.readyRaised (n : Fin 3) (p : Part) : Part :=
  if (p.node n).standing = .holding then (p.mapNode n Node.offerHeld).markBus else p

/-- The hold limit of a node's present hold has passed (R117). -/
def Part.holdLimitPassed (n : Fin 3) (p : Part) : Part :=
  if (p.node n).standing = .holding then
    (p.mapNode n fun d =>
      { d.offerHeld with hold := d.hold.map fun h => { h with left := 0 } }).markBus
  else p

/-! ### The arbiter (R125, R126, R132) -/

/-- The exchange in hand is offered: neither held nor suspended. -/
def Node.offersInHand (d : Node) (kind : Transfer → Bool) : Bool :=
  match d.inHand with
  | some e => !e.held && !d.suspended && kind e.transfer
  | none => false

def Transfer.isStop : Transfer → Bool
  | .stop | .bladeStop => true
  | .setpoint .. | .guardRead _ | .bladeRun _ | .bladeStatus => false

def Transfer.isSetpoint : Transfer → Bool
  | .setpoint .. => true
  | .stop | .bladeStop | .guardRead _ | .bladeRun _ | .bladeStatus => false

def Transfer.isGuardRead : Transfer → Bool
  | .guardRead _ => true
  | .stop | .bladeStop | .setpoint .. | .bladeRun _ | .bladeStatus => false

def Transfer.isStatus : Transfer → Bool
  | .bladeStatus => true
  | .stop | .bladeStop | .setpoint .. | .guardRead _ | .bladeRun _ => false

def Transfer.isRun : Transfer → Bool
  | .bladeRun _ => true
  | .stop | .bladeStop | .setpoint .. | .guardRead _ | .bladeStatus => false

/-- A node's report grant is offered (R125 class 3). -/
def Dbm.offersGrant (d : Dbm) (n : Fin 3) : Bool :=
  match (d.nodes.get n).grant with
  | some g => !g.held
  | none => (d.nodes.get n).reportOwed && !(n == 2 && d.interlock == .writing)

/-- A node offers something of a class (R125). -/
def Dbm.offers (d : Dbm) (n : Fin 3) (c : Nat) : Bool :=
  let node := d.nodes.get n
  let idle := node.inHand.isNone
  !node.isLost &&
  match c with
  | 1 =>
    n == 2 && d.interlock == .writing && (match node.inHand with
      | some e => !e.held && e.transfer.isRun
      | none => false)
  | 2 => (idle && node.slot.stop) || node.offersInHand Transfer.isStop
  | 3 => d.offersGrant n
  | 4 => (idle && node.slot.arm.isSome && !node.slot.stop) || node.offersInHand Transfer.isGuardRead
  | 5 => (idle && node.slot.setpoint.isSome && !node.slot.stop) || node.offersInHand Transfer.isSetpoint
  | 6 =>
    (idle && node.statusWanted && node.slot == {}) || node.offersInHand Transfer.isStatus
  | _ => false

/-- Until the stops of a reset have ended, only they and report grants are granted (R132). -/
def Dbm.resetAllows (d : Dbm) (n : Fin 3) (c : Nat) : Bool :=
  !(d.resetStops.n0 || d.resetStops.n1 || d.resetStops.n2) || c == 3 || (c == 2 && d.resetStops.get n)

/-- The offers in the order of grant: lowest class, then lowest node (R125). -/
def grantOrder : List (Nat × Fin 3) :=
  [(1, 2), (2, 0), (2, 1), (2, 2), (3, 0), (3, 1), (3, 2), (4, 2), (5, 0), (5, 1), (6, 2)]

/-- The offer that the arbiter grants, if the bus can be granted (R125, R126, R128). -/
def Dbm.grantable (d : Dbm) : Option (Nat × Fin 3) :=
  match d.bus with
  | .wire .. => none
  | .reserved => if d.offers 2 1 then some (1, 2) else none
  | .free => grantOrder.find? fun o => d.offers o.2 o.1 && d.resetAllows o.2 o.1

/-- The slot's front transfer becomes the exchange in hand (R122, R123, R127). -/
def Node.startFromSlot (d : Node) (isBlade : Bool) : Node :=
  if d.slot.stop then
    { d with slot.stop := false, inHand := some { transfer := if isBlade then .bladeStop else .stop } }
  else
    match d.slot.arm, d.slot.setpoint with
    | some level, _ => { d with slot.arm := none, inHand := some { transfer := .guardRead level } }
    | none, some (v, l) => { d with slot.setpoint := none, inHand := some { transfer := .setpoint v l } }
    | none, none =>
      if d.statusWanted then { d with statusWanted := false, inHand := some { transfer := .bladeStatus } }
      else d

/-- The exchange of an offer is in hand (R125). -/
def Part.takeOffer (c : Nat) (n : Fin 3) (p : Part) : Part :=
  if c = 3 then
    p.mapNode n fun d => { d with grant := some (d.grant.getD {}) }
  else if (p.node n).inHand.isSome then p
  else
    let p' := p.mapNode n fun d => d.startFromSlot (n == 2)
    if c = 4 then { p' with dbm.interlock := .reading } else p'

/-- The arbiter grants (R125 to R129). A later try of a write without permission ends the arm at the midpoint
instead, and the free bus is granted again; the fuel bounds that to once. -/
def Part.grantFrom : Nat → Part → Part
  | 0, p => p
  | fuel + 1, p =>
    match p.dbm.grantable with
    | none => p
    | some (c, n) =>
      if c = 1 ∧ ¬ p.bladePermitted then p.armAtMidpoint.grantFrom fuel
      else (p.takeOffer c n).putOnWire n (c == 3)

/-- The bus is granted where it can be. -/
def Part.grantBus (p : Part) : Part := p.grantFrom 2

end Sys2Proof.Machine
end

