-- ==== Sys2Proof/Machine/Access.lean ====
section
/-! DEFINITION. The completions of table store accesses, with the hand-over of results to their owners, and
the arbiter's grants (R177 to R189). -/

namespace Sys2Proof.Machine

/-- The result of a read goes to the request in hand. -/
def Part.plannerResult (result : Option (List Int)) (p : Part) : Part :=
  match p.plp.inHand, p.plp.op with
  | some _, some (.entryCheck home stage) => p.checkRead home stage result
  | some _, some (.append segments todo) => p.appendRead segments todo result
  | some _, some (.tableRead t i) => p.tableReadDone t i result
  | some _, some (.tableWrite t i mask fields todo) => p.writeCheckRead t i mask fields todo result
  | some _, some (.writing _ _) | some _, none | none, _ => p

/-- The result of a read goes back to the block that asked (R177). -/
def Part.deliver (owner : Owner) (result : Option (List Int)) (p : Part) : Part :=
  match owner with
  | .walk => p.walkRead result
  | .copies => p.loadCopies (result.getD (defaultFields .settings))
  | .correlator => p.correlatorRead result
  | .zoneEval => p.evalRead result
  | .shaper => p.shaperRead result
  | .crossing => p.crossingRead result
  | .planning => p.planRead result
  | .planner => p.plannerResult result
  | .scrubCopy => p.loadScrub (settingOf (result.getD (defaultFields .settings)) 45)
  | .scrub => p

/-- The store is free again. -/
def Part.freeStore (p : Part) : Part := { p with tst.current := none, agenda.store := true }

/-- The check capture of a read in TEST (R182). -/
def captureOf (t : Table) (i : Nat) (words : List StoredWord) : Capture :=
  ⟨t, i, words.zipIdx.map fun w => (w.2, w.1.check)⟩

/-- An entry read in TEST of an open entry fills the check capture (R182). -/
def Part.fillCapture (m : StoreMode) (t : Table) (i : Nat) (words : List StoredWord) (p : Part) : Part :=
  if m = .test ∧ ¬ t.isProtected then { p with tst.capture := some (captureOf t i words) } else p

/-- What the errors of an entry read cost, by region and store mode (R180 to R184). -/
def Part.readConsequence (m : StoreMode) (t : Table) (i : Nat) (reader : Reader) (own : Bool)
    (errors : List FoundError) (p : Part) : Part :=
  if errors.any (·.uncorrectable) then
    if t.isProtected then p.tableFault
    else if m = .test then p
    else p.poison t i reader own
  else p

/-- The checked part of an entry read: the capture, the log, the consequences. -/
def Part.checkEntry (a : Access) (t : Table) (i : Nat) (words : List StoredWord)
    (findings : List WordFinding) (p : Part) : Part :=
  ((p.fillCapture a.mode t i words).logErrors a.request.reader (findingErrors findings)).readConsequence
    a.mode t i a.request.reader (a.request.owner == .zoneEval) (findingErrors findings)

/-- An entry read has completed with the words it read (R180 to R184). A poisoned entry is returned as
unusable without its words being looked at (R183). -/
def Part.completeRead (a : Access) (t : Table) (i : Nat) (words : List StoredWord) (p : Part) : Part :=
  let p0 := p.freeStore
  if p0.tst.poisoned.get t i then if a.discard then p0 else p0.deliver a.request.owner none
  else
    let findings := readWords a.mode t.isProtected (wordNumber t i 0) words
    let p1 := p0.checkEntry a t i words findings
    if a.discard then p1
    else p1.deliver a.request.owner ((findingData findings).map (entryFields t))

/-- The answer to a write, if its request is still in hand. -/
def Part.answerWrite (a : Access) (code : AnswerCode) (p : Part) : Part :=
  if a.discard then p else p.answer code []

/-- A full-entry write has completed (R185). -/
def Part.completeFull (a : Access) (t : Table) (i : Nat) (fields : List Int) (p : Part) : Part :=
  let p0 := p.freeStore
  ({ p0 with tst.poisoned := p0.tst.poisoned.put t i false }.entryWritten t i fields).answerWrite a .ok

/-- A partial write has completed with its outcome (R186). -/
def Part.completePartial (a : Access) (t : Table) (i : Nat) (outcome : PartialOutcome) (p : Part) : Part :=
  let p0 := p.freeStore
  match outcome with
  | .storeError => p0.answerWrite a .storeError
  | .badValue errors => (p0.logErrors a.request.reader errors).answerWrite a .badValue
  | .written errors _ values =>
    ((p0.logErrors a.request.reader errors).entryWritten t i values).answerWrite a .ok

/-- What a scrub access finds in its word (R189). -/
def scrubFinding (n : Nat) (w : StoredWord) : Option FoundError :=
  match w.judge with
  | .clean _ => none
  | .single _ => some ⟨n, w.syndrome, true, false, true⟩
  | .uncorrectable => some ⟨n, w.syndrome, false, true, true⟩

/-- The word that a scrub access writes back (R189). -/
def scrubbedWord (w : StoredWord) : StoredWord :=
  match w.judge with
  | .single d => generatedWord d
  | .clean _ | .uncorrectable => w

/-- The consequence of an uncorrectable word found by the scrub (R183, R184, R189). -/
def Part.scrubConsequence (n : Nat) (e : FoundError) (p : Part) : Part :=
  let place := wordPlace n
  if e.uncorrectable then
    if place.1.isProtected then p.tableFault else p.poison place.1 place.2.1 .scrub false
  else p

/-- A scrub access has completed: the pointer advances (R189). -/
def Part.completeScrub (n : Nat) (w : StoredWord) (p : Part) : Part :=
  let p0 := p.freeStore
  let p1 := { p0 with tst.scrubPointer := (p0.tst.scrubPointer + 1) % Config.storeWords }
  match scrubFinding n w with
  | some e => (p1.logError .scrub e).scrubConsequence n e
  | none => p1

/-- The scrub timer expires (R188, R189). -/
def Part.scrubExpired (p : Part) : Part :=
  let p' := { p with tst.scrubTimer := some p.tst.scrubPeriod }
  let busy := p.tst.waiting.any (fun q => q.owner == .scrub) ||
    (match p.tst.current with
      | some a => a.request.owner == .scrub
      | none => false)
  if p.tst.mode = .normal ∧ ¬ busy then p'.request .scrub (.scrub p.tst.scrubPointer) .scrub else p'

/-- A request leaves the waiting requests. -/
def Part.removeRequest (q : Request) (p : Part) : Part :=
  { p with tst.waiting := p.tst.waiting.erase q }

/-- The arbiter grants while the store is free (R177): a protected write that the mode refuses is answered
WRONG_MODE (R178), a scrub access that the store mode suspends is withdrawn (R189). The fuel is the number
of waiting requests. -/
def Part.grantStoreFrom : Nat → Part → Part
  | 0, p => p
  | fuel + 1, p =>
    match p.tst.current, nextRequest p.tst.waiting with
    | none, some q =>
      let p' := p.removeRequest q
      if q.modeRefused p.fcu.mode then (p'.answer .wrongMode []).grantStoreFrom fuel
      else if q.scrubWithdrawn p.tst.mode then p'.grantStoreFrom fuel
      else { p' with tst.current := some ⟨q, p.tst.mode, false⟩ }
    | _, _ => p

def Part.grantStore (p : Part) : Part := p.grantStoreFrom p.tst.waiting.length

end Sys2Proof.Machine
end

