-- ==== Sys2Proof/Machine/Settle.lean ====
section
/-! DEFINITION. One event: the effect of its cause, then what the blocks owe before the next request is taken,
each only where the event has marked it, then the requests that the port takes in the event, each with the same
(R193), then what is decided for the state at its end, and the order of its frames (R196); log 4. -/

namespace Sys2Proof.Machine

/-- A pass of the end of the event, made where its mark is set. -/
def Part.passIf (mark : Bool) (pass : Part → Part) (p : Part) : Part := if mark then pass p else p

/-- The passes that change modes and segments: the deferral test (R147) and the Return Unit's beginnings (R159,
R163). -/
def Part.settleMotion (p : Part) : Part :=
  let p1 := p.passIf p.agenda.deferral Part.deferralPass
  p1.passIf p1.agenda.returning Part.returnPass

/-- The passes behind them: the period computation begun (R90), the next walk (R139), and the store's arbiter
(R177). -/
def Part.settleGrants (p : Part) : Part :=
  let p1 := p.passIf p.agenda.period Part.beginComputation
  let p2 := p1.passIf p1.agenda.walk Part.beginWalk
  p2.passIf p2.agenda.store Part.grantStore

/-- What follows the effect of the cause, and each frame taken in the event, before the next frame is taken; the
marks of these passes are clear behind them. -/
def Part.settle (p : Part) : Part :=
  let p' := p.settleMotion.settleGrants
  { p' with
    agenda := { p'.agenda with
      deferral := false
      returning := false
      period := false
      walk := false
      store := false
      held := p'.deferralTest } }

/-- What is decided once, for the state at the end of the event, when the port takes no further frame: the
REFILL and STARVED tests (R85, R86), the blade (R16, R77), a change of the source of motion (R90), and the drive
bus arbiter (R126). -/
def Part.conclude (p : Part) : Part :=
  let p1 := p.passIf p.agenda.removed Part.refillTest
  let p2 := p1.passIf p1.agenda.starved Part.starvedTest
  let p3 := p2.passIf p2.agenda.blade Part.decideBlade
  let p4 := p3.passIf p3.agenda.source Part.noteSource
  p4.passIf p4.agenda.bus Part.grantBus

/-- The port takes the next frame. -/
def Part.takeNext (f : RxFrame) (p : Part) : Part :=
  { p with plp.rx := markInHand p.plp.rx, agenda.port := false }.takeFrame f.kind f.body

/-- The port takes frames while it can (R193). The fuel is the number of frames in the receive buffer. -/
def Part.serveFrom : Nat → Part → Part
  | 0, p => p
  | fuel + 1, p =>
    if p.agenda.port then
      match p.plp.nextFrame with
      | some f => (p.takeNext f).settle.serveFrom fuel
      | none => p
    else p

def Part.serve (p : Part) : Part := p.serveFrom p.plp.rx.length

/-- The NOTICEs of a class among frames. -/
def noticesOf (c : NoticeClass) (fs : List TxFrame) : List TxFrame :=
  fs.filter fun f =>
    match f with
    | .notice c' _ _ => c' == c
    | .answer .. | .started _ => false

/-- The frames that are no NOTICEs. -/
def otherFrames (fs : List TxFrame) : List TxFrame :=
  fs.filter fun f =>
    match f with
    | .notice .. => false
    | .answer .. | .started _ => true

/-- The frames of one event in the order in which they join the list (R196). -/
def orderFrames (fs : List TxFrame) : List TxFrame :=
  noticesOf .motion fs ++ noticesOf .hazard fs ++ noticesOf .field fs ++ noticesOf .store fs ++ otherFrames fs

/-- The marks of a new event. -/
def Part.begin (p : Part) : Part :=
  { p with agenda := { held := p.deferralTest, frames := p.plp.tx.length } }

/-- The end of an event: its frames in order, its marks clear. -/
def Part.finish (p : Part) : Part :=
  { p with
    plp.tx := p.plp.tx.take p.agenda.frames ++ orderFrames (p.plp.tx.drop p.agenda.frames)
    agenda := {} }

/-- One event of the part. -/
def Part.runEvent (effect : Part → Part) (p : Part) : Part := (effect p.begin).settle.serve.conclude.finish

/-- One event that reads no word of the table memory and writes none. -/
def State.event (effect : Part → Part) (s : State) : State := { s with part := s.part.runEvent effect }

end Sys2Proof.Machine
end

