-- ==== Sys2Proof/Machine/Resets.lean ====
section
/-! DEFINITION. The three resets (R21, R45, R69, R88, R110, R132, R137, R157, R173, R190, R200), and the
commands POWER_ON and RESET_LINE. -/

namespace Sys2Proof.Machine

/-- The stop cause that a reset writes (R2, R21). -/
def ResetKind.stopCause : ResetKind → StopCause
  | .powerOn => .none
  | .resetLine => .resetLine
  | .restart => .restart

/-- What a reset leaves of the table store's own state (R190). -/
def Tst.reset (k : ResetKind) (s : Tst) : Tst :=
  match k with
  | .powerOn => {}
  | .resetLine => { poisoned := s.poisoned }
  | .restart => { poisoned := s.poisoned, log := s.log, capture := s.capture, pattern := s.pattern }

/-- The part right after a reset of a kind. The count of free values is the model's own and goes on. -/
def Part.reset (k : ResetKind) (p : Part) : Part :=
  { fcu := { stopCause := k.stopCause }
    tst := p.tst.reset k
    plp := { tx := [.started k] }
    free := p.free }

/-- The state right after a reset of a kind: power-on gives the table words their power-on values, the
others keep them (R190). -/
def State.resetBy (k : ResetKind) (s : State) : State :=
  { s with
    part := s.part.reset k
    mem := match k with
      | .powerOn => []
      | .resetLine | .restart => s.mem }

/-- POWER_ON (R21, R190). -/
def execPowerOn (s : State) : Host.Outcome State Fault Refusal := .next (s.resetBy .powerOn)

/-- RESET_LINE (R21, R190). -/
def execResetLine (s : State) : Host.Outcome State Fault Refusal := .next (s.resetBy .resetLine)

end Sys2Proof.Machine
end

