-- ==== Sys2Proof/Machine/PlannerCommands.lean ====
section
/-! DEFINITION. The commands of the planner link. A request row is the arrival of that request's whole frame
(R191 to R194, log 1). -/

namespace Sys2Proof.Machine

/-- A frame of a kind, tag and body arrives whole: the hunt has found it, so no byte is left in front of
it (R191). -/
def Part.requestArrived (kind tag : Byte) (body : List Byte) (p : Part) : Part :=
  { p with plp.hunt := [] }.frameArrived ⟨kind, tag, body⟩

/-- A request's frame arrives: one event. -/
def State.request (kind tag : Byte) (body : List Byte) (s : State) : Host.Outcome State Fault Refusal :=
  .next (s.event (Part.requestArrived kind tag body))

/-- The frames that bytes have completed arrive one after the other, each an event of its own. -/
def Part.arriveAll : List LinkFrame → Part → Part
  | [], p => p
  | f :: fs, p => (p.runEvent (Part.frameArrived f)).arriveAll fs

/-- Bytes arrive on the planner link and are hunted through (R191). -/
def Part.receiveBytes (bytes : List Byte) (p : Part) : Part :=
  let all := p.plp.hunt ++ bytes
  let found := hunt all.length all
  { p with plp.hunt := found.2 }.arriveAll found.1

/-- PLANNER_FRAME (R191): bytes arrive, with the frames they complete. -/
def execPlannerFrame (bytes : List Byte) (s : State) : Host.Outcome State Fault Refusal :=
  .next { s with part := s.part.receiveBytes bytes }

/-- SYNC_HUNT (R191): a sync byte and a length byte behind it. -/
def execSyncHunt (length : Byte) (s : State) : Host.Outcome State Fault Refusal :=
  .next { s with part := s.part.receiveBytes [90, length] }

def execKeep (tag : Byte) (s : State) : Host.Outcome State Fault Refusal := s.request 0 tag []

def execStatus (tag : Byte) (s : State) : Host.Outcome State Fault Refusal := s.request 1 tag []

def execModeRun (tag : Byte) (s : State) : Host.Outcome State Fault Refusal := s.request 2 tag [0]

def execModeIdle (tag : Byte) (s : State) : Host.Outcome State Fault Refusal := s.request 2 tag [1]

def execModeHome (tag : Byte) (s : State) : Host.Outcome State Fault Refusal := s.request 2 tag [2]

def execModeClear (tag : Byte) (s : State) : Host.Outcome State Fault Refusal := s.request 2 tag [3]

def execPlanAppend (tag : Byte) (segments : List SegmentBody) (s : State) :
    Host.Outcome State Fault Refusal :=
  s.request 3 tag (planAppendBody segments)

def execPlanFlush (tag : Byte) (s : State) : Host.Outcome State Fault Refusal := s.request 4 tag []

def execTableWriteLoopCode (tag index : Byte) (mask : BitVec 64) (block : List Byte) (s : State) :
    Host.Outcome State Fault Refusal :=
  s.request 5 tag (tableWriteBody .loopCode index mask block)

def execTableWriteRule (tag index : Byte) (mask : BitVec 64) (block : List Byte) (s : State) :
    Host.Outcome State Fault Refusal :=
  s.request 5 tag (tableWriteBody .rule index mask block)

def execTableWriteZone (tag index : Byte) (mask : BitVec 64) (block : List Byte) (s : State) :
    Host.Outcome State Fault Refusal :=
  s.request 5 tag (tableWriteBody .zone index mask block)

def execTableWritePassage (tag index : Byte) (mask : BitVec 64) (block : List Byte) (s : State) :
    Host.Outcome State Fault Refusal :=
  s.request 5 tag (tableWriteBody .passage index mask block)

def execTableWriteSettings (tag index : Byte) (mask : BitVec 64) (block : List Byte) (s : State) :
    Host.Outcome State Fault Refusal :=
  s.request 5 tag (tableWriteBody .settings index mask block)

def execTableRead (tag table index : Byte) (s : State) : Host.Outcome State Fault Refusal :=
  s.request 6 tag [table, index]

/-- STORE_MODE_SET: a STORE_CONTROL carrying the store mode part alone (R179). -/
def execStoreModeSet (tag storeMode : Byte) (s : State) : Host.Outcome State Fault Refusal :=
  s.request 7 tag [1, storeMode, 0]

/-- TEST_PATTERN_SET: a STORE_CONTROL carrying the test pattern part alone (R179). -/
def execTestPatternSet (tag pattern : Byte) (s : State) : Host.Outcome State Fault Refusal :=
  s.request 7 tag [2, 0, pattern]

/-- CLEAR_LOG: a STORE_CONTROL carrying the CLEAR_LOG part alone (R179). -/
def execClearLog (tag : Byte) (s : State) : Host.Outcome State Fault Refusal := s.request 7 tag [4, 0, 0]

def execCollect (tag noticeClass : Byte) (s : State) : Host.Outcome State Fault Refusal :=
  s.request 8 tag [noticeClass]

def execRestart (tag : Byte) (s : State) : Host.Outcome State Fault Refusal := s.request 9 tag []

/-- The ANSWER just sent is that of a RESTART (R193, R194). -/
def Plp.restartAnswered (l : Plp) (code : AnswerCode) : Bool :=
  l.restarting && code == .ok &&
  match l.rx with
  | f :: _ => f.kind == 9
  | [] => false

/-- A NOTICE has been sent: its class emits if its mark is set and entries are pending, and the mark clears
(R198). -/
def Part.noticeSent (c : NoticeClass) (p : Part) : Part :=
  let b := p.nco.classes.get c
  if b.due then { p with nco.classes := p.nco.classes.set c { b with due := false } }.emit c else p

/-- The end of the sending of a frame (R192, R194, R196, R198). -/
def Part.frameSent (p : Part) : Part :=
  match p.plp.tx with
  | [] => p
  | f :: rest =>
    let p' := { p with plp.tx := rest, agenda.frames := rest.length }
    match f with
    | .answer _ code _ =>
      if p.plp.restartAnswered code then p.reset .restart
      else { p' with plp.rx := p'.plp.rx.drop 1, agenda.port := true }
    | .notice c _ _ => p'.noticeSent c
    | .started _ => p'

/-- FRAME_SENT (R196). With nothing in the transmit list nothing is being sent. -/
def execFrameSent (s : State) : Host.Outcome State Fault Refusal := .next (s.event Part.frameSent)

end Sys2Proof.Machine
end

