-- ==== Sys2Proof/Machine/SenseCommands.lean ====
section
/-! DEFINITION. The commands of the sense link: the frame check, the latest values, the walk requests and
the freshness timers (R22, R133 to R137). -/

namespace Sys2Proof.Machine

/-- A frame of a node passes the check of its head (R133). -/
def headOk (h : SenseHead) (node : Nat) : Bool := h.checkOk && h.node == node && h.lengthOk

/-- A frame taken restarts its node's freshness timer and clears its stale mark (R136). -/
def Part.freshen (n : Fin 5) (p : Part) : Part :=
  { p with
    sin.timers := p.sin.timers.set n (some (p.sin.limits.get n))
    sin.stale := p.sin.stale.set n false }

/-- A coil frame (R22). -/
def Part.coilFrame (h : SenseHead) (number : Byte) (left right : List (BitVec 12)) (p : Part) : Part :=
  if headOk h 0 then (p.freshen 0).takeCoilFrame ⟨number, left, right⟩ else p

/-- An edge source is requested on the change into the state (R135). -/
def Part.edge (source : Source) (subject : Nat) (now before : Bool) (p : Part) : Part :=
  if now && !before then p.requestWalk source subject 1 else p

/-- A bumper frame (R134, R135). -/
def Part.bumperFrame (h : SenseHead) (left centre right : SenseBit) (p : Part) : Part :=
  if headOk h 1 && left != SenseBit.invalid && centre != SenseBit.invalid && right != SenseBit.invalid then
    let old := p.sin.bumper
    let was := fun (f : BumperValues → Bool) => (old.map f).getD false
    { p.freshen 1 with sin.bumper := some ⟨left == SenseBit.yes, centre == SenseBit.yes, right == SenseBit.yes, p.clock⟩ }
      |>.edge .bumpL 1 (left == SenseBit.yes) (was (·.left))
      |>.edge .bumpC 1 (centre == SenseBit.yes) (was (·.centre))
      |>.edge .bumpR 1 (right == SenseBit.yes) (was (·.right))
  else p

/-- An attitude frame (R134, R135). -/
def Part.attitudeFrame (h : SenseHead) (pitch roll : Int) (lift : SenseBit) (p : Part) : Part :=
  if headOk h 2 && pitch.natAbs ≤ 900 && roll.natAbs ≤ 900 && lift != SenseBit.invalid then
    let was := (p.sin.attitude.map (·.lift)).getD false
    { p.freshen 2 with sin.attitude := some ⟨pitch, roll, lift == SenseBit.yes, p.clock⟩ }
      |>.edge .lift 2 (lift == SenseBit.yes) was
      |>.requestWalk .pitch 2 pitch
      |>.requestWalk .roll 2 roll
  else p

/-- A range of 0, no echo, is walked as 401 (R134). -/
def walkedRange (cm : Nat) : Int := if cm = 0 then 401 else cm

/-- A range frame (R134). -/
def Part.rangeFrame (h : SenseHead) (left right : Nat) (p : Part) : Part :=
  if headOk h 3 && left ≤ 400 && right ≤ 400 then
    { p.freshen 3 with sin.range := some ⟨left, right, p.clock⟩ }
      |>.requestWalk .rangeL 3 (walkedRange left)
      |>.requestWalk .rangeR 3 (walkedRange right)
  else p

/-- An environment frame (R134, R169, R172). -/
def Part.environmentFrame (h : SenseHead) (rain battery contact : Nat) (p : Part) : Part :=
  if headOk h 4 && rain ≤ 100 && battery ≤ 32767 && contact ≤ 32767 then
    { p.freshen 4 with sin.environment := some ⟨rain, battery, contact, p.clock⟩ }
      |>.requestWalk .rain 4 rain
      |>.requestWalk .battery 4 battery
      |>.countContact contact
  else p

/-- A freshness timer expires (R136). -/
def Part.sensorStale (n : Fin 5) (p : Part) : Part :=
  match p.sin.timers.get n with
  | none => p
  | some _ =>
    let p' := { p with sin.timers := p.sin.timers.set n none, sin.stale := p.sin.stale.set n true }
      |>.requestWalk .sensorStale n.val n.val
    match n with
    | 0 => p'.coilStale
    | 4 => p'.environmentStale
    | _ => p'

def execCoilFrame (h : SenseHead) (number : Byte) (left right : List (BitVec 12)) (s : State) :
    Host.Outcome State Fault Refusal :=
  .next (s.event (Part.coilFrame h number left right))

def execBumperFrame (h : SenseHead) (left centre right : SenseBit) (s : State) :
    Host.Outcome State Fault Refusal :=
  .next (s.event (Part.bumperFrame h left centre right))

def execAttitudeFrame (h : SenseHead) (pitch roll : Int) (lift : SenseBit) (s : State) :
    Host.Outcome State Fault Refusal :=
  .next (s.event (Part.attitudeFrame h pitch roll lift))

def execRangeFrame (h : SenseHead) (left right : Nat) (s : State) : Host.Outcome State Fault Refusal :=
  .next (s.event (Part.rangeFrame h left right))

def execEnvironmentFrame (h : SenseHead) (rain battery contact : Nat) (s : State) :
    Host.Outcome State Fault Refusal :=
  .next (s.event (Part.environmentFrame h rain battery contact))

def execSensorStale (n : Fin 5) (s : State) : Host.Outcome State Fault Refusal :=
  .next (s.event (Part.sensorStale n))

end Sys2Proof.Machine
end

