-- ==== Sys2Proof/Machine/TimerCommands.lean ====
section
/-! DEFINITION. The expiries of the part's own timers: keep timer (R20), shaper period (R90), response hold
(R148), the Coalescer's timers (R198), the scrub timer (R189). A timer that is stopped does not expire. -/

namespace Sys2Proof.Machine

/-- What link silence does by mode and silent action (R20). -/
def Part.silence (p : Part) : Part :=
  match p.fcu.silentAction with
  | .halt => if p.fcu.mode.moving then p.enterSafe .linkSilent else p
  | .home => if p.fcu.planned then p.homeBySilence else p

/-- The keep timer expires (R20). -/
def Part.keepExpired (p : Part) : Part :=
  match p.fcu.keepTimer with
  | none => p
  | some _ => ({ p with fcu.keepTimer := none, fcu.keepSilent := true }.addEntry .keepState 0 1).silence

/-- The shaper period expires (R90, R106, R107). -/
def Part.periodExpired (p : Part) : Part :=
  { { p with msh.periodTimer := some Config.shaperPeriodMs }.creditInterval with agenda.period := true }

/-- The hold timer of the active response expires (R148). -/
def Part.responseHoldExpired (p : Part) : Part :=
  match p.hre.active with
  | some a => if a.timer.isSome then p.completeResponse else p
  | none => p

/-- The hold timer of a class expires (R198). -/
def Part.noticeHoldExpired (c : NoticeClass) (p : Part) : Part :=
  let b := p.nco.classes.get c
  if b.holdTimer.isSome then
    { p with nco.classes := p.nco.classes.set c { b with holdTimer := none } }.emitCause c
  else p

/-- The quiet timer of a class expires (R198). -/
def Part.noticeQuietExpired (c : NoticeClass) (p : Part) : Part :=
  let b := p.nco.classes.get c
  if b.quietTimer.isSome then
    { p with nco.classes := p.nco.classes.set c { b with quietTimer := none } }.emitCause c
  else p

/-- The scrub timer expires, if it runs (R188, R189). -/
def Part.scrubTimerExpired (p : Part) : Part := if p.tst.scrubTimer.isSome then p.scrubExpired else p

def execKeepTimerExpiry (s : State) : Host.Outcome State Fault Refusal := .next (s.event Part.keepExpired)

def execShaperPeriod (s : State) : Host.Outcome State Fault Refusal := .next (s.event Part.periodExpired)

def execResponseHoldExpiry (s : State) : Host.Outcome State Fault Refusal :=
  .next (s.event Part.responseHoldExpired)

def execNoticeHoldExpiry (c : NoticeClass) (s : State) : Host.Outcome State Fault Refusal :=
  .next (s.event (Part.noticeHoldExpired c))

def execNoticeQuietExpiry (c : NoticeClass) (s : State) : Host.Outcome State Fault Refusal :=
  .next (s.event (Part.noticeQuietExpired c))

def execScrubExpiry (s : State) : Host.Outcome State Fault Refusal :=
  .next (s.event Part.scrubTimerExpired)

end Sys2Proof.Machine
end

