-- ==== Sys2Proof/Machine/BusCommands.lean ====
section
/-! DEFINITION. The commands of the drive bus (R114 to R117). -/

namespace Sys2Proof.Machine

def execNodeAnswer (a : NodeAnswer) (s : State) : Host.Outcome State Fault Refusal :=
  .next (s.event (Part.nodeAnswered a))

def execResponseTimeout (s : State) : Host.Outcome State Fault Refusal :=
  .next (s.event Part.responseTimedOut)

def execReadySignal (n : Fin 3) (s : State) : Host.Outcome State Fault Refusal :=
  .next (s.event (Part.readyRaised n))

def execHoldLimitExpiry (n : Fin 3) (s : State) : Host.Outcome State Fault Refusal :=
  .next (s.event (Part.holdLimitPassed n))

end Sys2Proof.Machine
end

