-- ==== Sys2Proof/Machine/StoreCommands.lean ====
section
/-! DEFINITION. The completions of the table store's accesses (R177 to R189). A completion of a kind that is
not the access in progress has nothing to complete and changes nothing. -/

namespace Sys2Proof.Machine

/-- ENTRY_READ_DONE (R180 to R184). -/
def execEntryReadDone (s : State) : Host.Outcome State Fault Refusal :=
  match s.part.tst.current with
  | some a =>
    match a.request.kind with
    | .entryRead t i =>
      if i < t.entries then .next (s.event (Part.completeRead a t i (s.mem.readEntry t i)))
      else .fault .noSuchWord
    | .fullWrite .. | .partialWrite .. | .scrub _ => .next s
  | none => .next s

/-- FULL_ENTRY_WRITE_DONE (R185). -/
def execFullEntryWriteDone (s : State) : Host.Outcome State Fault Refusal :=
  match s.part.tst.current with
  | some a =>
    match a.request.kind with
    | .fullWrite t i fields =>
      if i < t.entries then
        .next { s.event (Part.completeFull a t i fields) with
          mem := s.mem.writeEntry t i (fullWords s.part.tst a.mode t fields) }
      else .fault .noSuchWord
    | .entryRead .. | .partialWrite .. | .scrub _ => .next s
  | none => .next s

/-- The words that a partial write's outcome writes. -/
def PartialOutcome.words : PartialOutcome → List (Nat × StoredWord)
  | .written _ words _ => words
  | .storeError | .badValue _ => []

/-- PARTIAL_WRITE_DONE (R186). -/
def execPartialWriteDone (s : State) : Host.Outcome State Fault Refusal :=
  match s.part.tst.current with
  | some a =>
    match a.request.kind with
    | .partialWrite t i mask fields =>
      if i < t.entries then
        let outcome := partialOutcome s.part.tst a.mode t i mask fields (s.mem.readEntry t i)
        .next { s.event (Part.completePartial a t i outcome) with
          mem := s.mem.writeEntry t i outcome.words }
      else .fault .noSuchWord
    | .entryRead .. | .fullWrite .. | .scrub _ => .next s
  | none => .next s

/-- SCRUB_ACCESS_DONE (R189). -/
def execScrubAccessDone (s : State) : Host.Outcome State Fault Refusal :=
  match s.part.tst.current with
  | some a =>
    match a.request.kind with
    | .scrub n =>
      if n < Config.storeWords then
        .next { s.event (Part.completeScrub n (s.mem.read n)) with
          mem := s.mem.write n (scrubbedWord (s.mem.read n)) }
      else .fault .noSuchWord
    | .entryRead .. | .fullWrite .. | .partialWrite .. => .next s
  | none => .next s

end Sys2Proof.Machine
end

