-- ==== Sys2Proof/Machine/Dispatch.lean ====
section
/-! DEFINITION. The commands of the table and their meanings: one arm per constructor of Instr. -/

namespace Sys2Proof.Machine

def exec (i : Instr) (s : State) : Host.Outcome State Fault Refusal :=
  match i with
  | .powerOn => Sys2Proof.Machine.execPowerOn s
  | .resetLine => Sys2Proof.Machine.execResetLine s
  | .plannerFrame bytes => Sys2Proof.Machine.execPlannerFrame bytes s
  | .keep tag => Sys2Proof.Machine.execKeep tag s
  | .status tag => Sys2Proof.Machine.execStatus tag s
  | .modeRun tag => Sys2Proof.Machine.execModeRun tag s
  | .modeIdle tag => Sys2Proof.Machine.execModeIdle tag s
  | .modeHome tag => Sys2Proof.Machine.execModeHome tag s
  | .modeClear tag => Sys2Proof.Machine.execModeClear tag s
  | .planAppend tag segments => Sys2Proof.Machine.execPlanAppend tag segments s
  | .planFlush tag => Sys2Proof.Machine.execPlanFlush tag s
  | .tableWriteLoopCode tag index mask block => Sys2Proof.Machine.execTableWriteLoopCode tag index mask block s
  | .tableWriteRule tag index mask block => Sys2Proof.Machine.execTableWriteRule tag index mask block s
  | .tableWriteZone tag index mask block => Sys2Proof.Machine.execTableWriteZone tag index mask block s
  | .tableWritePassage tag index mask block => Sys2Proof.Machine.execTableWritePassage tag index mask block s
  | .tableWriteSettings tag index mask block => Sys2Proof.Machine.execTableWriteSettings tag index mask block s
  | .tableRead tag table index => Sys2Proof.Machine.execTableRead tag table index s
  | .storeModeSet tag storeMode => Sys2Proof.Machine.execStoreModeSet tag storeMode s
  | .testPatternSet tag pattern => Sys2Proof.Machine.execTestPatternSet tag pattern s
  | .clearLog tag => Sys2Proof.Machine.execClearLog tag s
  | .collect tag noticeClass => Sys2Proof.Machine.execCollect tag noticeClass s
  | .restart tag => Sys2Proof.Machine.execRestart tag s
  | .frameSent => Sys2Proof.Machine.execFrameSent s
  | .coilFrame head number left right => Sys2Proof.Machine.execCoilFrame head number left right s
  | .bumperFrame head left centre right => Sys2Proof.Machine.execBumperFrame head left centre right s
  | .attitudeFrame head pitch roll lift => Sys2Proof.Machine.execAttitudeFrame head pitch roll lift s
  | .rangeFrame head left right => Sys2Proof.Machine.execRangeFrame head left right s
  | .environmentFrame head rain battery contact => Sys2Proof.Machine.execEnvironmentFrame head rain battery contact s
  | .sensorStale node => Sys2Proof.Machine.execSensorStale node s
  | .keepTimerExpiry => Sys2Proof.Machine.execKeepTimerExpiry s
  | .shaperPeriod => Sys2Proof.Machine.execShaperPeriod s
  | .responseHoldExpiry => Sys2Proof.Machine.execResponseHoldExpiry s
  | .nodeAnswer answer => Sys2Proof.Machine.execNodeAnswer answer s
  | .responseTimeout => Sys2Proof.Machine.execResponseTimeout s
  | .readySignal node => Sys2Proof.Machine.execReadySignal node s
  | .holdLimitExpiry node => Sys2Proof.Machine.execHoldLimitExpiry node s
  | .entryReadDone => Sys2Proof.Machine.execEntryReadDone s
  | .fullEntryWriteDone => Sys2Proof.Machine.execFullEntryWriteDone s
  | .partialWriteDone => Sys2Proof.Machine.execPartialWriteDone s
  | .scrubExpiry => Sys2Proof.Machine.execScrubExpiry s
  | .scrubAccessDone => Sys2Proof.Machine.execScrubAccessDone s
  | .noticeHoldExpiry noticeClass => Sys2Proof.Machine.execNoticeHoldExpiry noticeClass s
  | .noticeQuietExpiry noticeClass => Sys2Proof.Machine.execNoticeQuietExpiry noticeClass s
  | .syncHunt length => Sys2Proof.Machine.execSyncHunt length s

end Sys2Proof.Machine
end

