-- ==== Sys2Proof/Machine/Idle.lean ====
section
/-! DEFINITION. What happens when no command waits: the first timer that has run out expires, else one
millisecond of the part clock passes (log 3). -/

namespace Sys2Proof.Machine

/-- A node's hold limit has passed and something it holds waits for that (R117). -/
def Node.holdDue (d : Node) : Bool :=
  d.holdPassed &&
  ((match d.inHand with
    | some e => e.held
    | none => false) ||
   (match d.grant with
    | some g => g.held
    | none => false))

/-- The response timer of the try on the wire has run out (R115). -/
def Bus.due (b : Bus) : Bool :=
  match b with
  | .wire _ _ _ left => left == 0
  | .free | .reserved => false

/-- The active response's hold timer has run out (R148). -/
def Hre.due (h : Hre) : Bool :=
  match h.active with
  | some a => a.timer.due
  | none => false

/-- The expiries in the order in which they are taken when several are due, each with whether it is. -/
def Part.expiries (p : Part) : List (Bool × Instr) :=
  [(p.dbm.bus.due, .responseTimeout),
   ((p.node 0).holdDue, .holdLimitExpiry 0),
   ((p.node 1).holdDue, .holdLimitExpiry 1),
   ((p.node 2).holdDue, .holdLimitExpiry 2),
   (p.msh.periodTimer.due, .shaperPeriod),
   (p.hre.due, .responseHoldExpiry),
   (p.fcu.keepTimer.due, .keepTimerExpiry),
   (p.sin.timers.s0.due, .sensorStale 0),
   (p.sin.timers.s1.due, .sensorStale 1),
   (p.sin.timers.s2.due, .sensorStale 2),
   (p.sin.timers.s3.due, .sensorStale 3),
   (p.sin.timers.s4.due, .sensorStale 4),
   (p.tst.scrubTimer.due, .scrubExpiry),
   (p.nco.classes.motion.holdTimer.due, .noticeHoldExpiry .motion),
   (p.nco.classes.hazard.holdTimer.due, .noticeHoldExpiry .hazard),
   (p.nco.classes.field.holdTimer.due, .noticeHoldExpiry .field),
   (p.nco.classes.store.holdTimer.due, .noticeHoldExpiry .store),
   (p.nco.classes.motion.quietTimer.due, .noticeQuietExpiry .motion),
   (p.nco.classes.hazard.quietTimer.due, .noticeQuietExpiry .hazard),
   (p.nco.classes.field.quietTimer.due, .noticeQuietExpiry .field),
   (p.nco.classes.store.quietTimer.due, .noticeQuietExpiry .store)]

/-- The expiry that is taken next. -/
def firstDue : List (Bool × Instr) → Option Instr
  | [] => none
  | (due, i) :: rest => if due then some i else firstDue rest

/-- One millisecond passes for a node's hold. -/
def Node.tick (d : Node) : Node := { d with hold := d.hold.map fun h => { h with left := h.left - 1 } }

/-- One millisecond passes for the try on the wire. -/
def Bus.tick (b : Bus) : Bus :=
  match b with
  | .wire n grant number left => .wire n grant number (left - 1)
  | .free => .free
  | .reserved => .reserved

/-- One millisecond passes for a class's timers. -/
def ClassBuffer.tick (b : ClassBuffer) : ClassBuffer :=
  { b with holdTimer := b.holdTimer.tick, quietTimer := b.quietTimer.tick }

/-- One millisecond of the part clock (00_scope.md, Time). -/
def Part.tick (p : Part) : Part :=
  { p with
    clock := p.clock + 1
    fcu.keepTimer := p.fcu.keepTimer.tick
    msh.periodTimer := p.msh.periodTimer.tick
    dbm.nodes := ⟨p.dbm.nodes.n0.tick, p.dbm.nodes.n1.tick, p.dbm.nodes.n2.tick⟩
    dbm.bus := p.dbm.bus.tick
    sin.timers :=
      ⟨p.sin.timers.s0.tick, p.sin.timers.s1.tick, p.sin.timers.s2.tick, p.sin.timers.s3.tick,
       p.sin.timers.s4.tick⟩
    hre.active := p.hre.active.map fun a => { a with timer := a.timer.tick }
    tst.scrubTimer := p.tst.scrubTimer.tick
    nco.classes :=
      ⟨p.nco.classes.motion.tick, p.nco.classes.hazard.tick, p.nco.classes.field.tick,
       p.nco.classes.store.tick⟩ }

/-- The block with no command waiting. -/
def idle (s : State) : Host.Outcome State Fault Refusal :=
  match firstDue s.part.expiries with
  | some i => Sys2Proof.Machine.exec i s
  | none => .next { s with part := s.part.tick }

end Sys2Proof.Machine
end

