-- ==== Sys2Proof/Safety.lean ====
section
/-! DEFINITION. What must hold of a state and of two states around a command: the invariants, the conditions
under which a command completes, and what a command leaves unchanged. -/

namespace Sys2Proof

open Machine

/-! ### Invariants -/

/-- The table memory is in its canonical form (R174; the model's own form, log 12). -/
def MemoryCanonical (s : State) : Prop := s.mem.wf = true

/-- Between events nothing of an event is left to be done (log 4). -/
def Quiet (s : State) : Prop := s.part.agenda = {}

/-- The receive buffer holds at most 4 frames (R192). -/
def ReceiveBounded (s : State) : Prop := s.part.plp.rx.length ≤ Config.receivePlaces

/-- The home-path stack holds at most 16 entries (R161) and the crossing list at most 4 (R159). -/
def RouteBounded (s : State) : Prop :=
  s.part.rtu.stack.length ≤ Config.stackPlaces ∧ s.part.rtu.crossings.length ≤ Config.crossingPlaces

/-- The segment queue holds at most 32 records, and would still with the segments of the PLAN_APPEND in hand
(R72, R75). -/
def QueueBounded (s : State) : Prop :=
  s.part.sq.queue.length ≤ Config.queuePlaces ∧
  ∀ segments todo, s.part.plp.op = some (.append segments todo) →
    s.part.sq.queue.length + segments.length ≤ Config.queuePlaces

/-- Each class's buffer holds at most 12 pending entries (R197). -/
def NoticesBounded (s : State) : Prop :=
  ∀ c, (s.part.nco.classes.get c).entries.length ≤ Config.classPlaces

/-- While the uncorrectable flag of the error log is set, the location it holds, if any, describes an
uncorrectable error (R187). -/
def LogConsistent (s : State) : Prop :=
  s.part.tst.log.uncorrectable = true → ∀ l, s.part.tst.log.location = some l → l.uncorrectable = true

/-- While the interlock is WRITING, a BLADE_RUN is the blade's exchange in hand, and the bus is reserved for it or
carries it (R111, R128, R129). -/
def WriteHasTheBus (s : State) : Prop :=
  s.part.dbm.interlock = .writing →
    (s.part.dbm.bus = .reserved ∨ ∃ number left, s.part.dbm.bus = .wire 2 false number left) ∧
    (s.part.node 2).superseded = false ∧
    ∃ e level, (s.part.node 2).inHand = some e ∧ e.transfer = .bladeRun level

/-- The pending slot is empty whenever no response is active (R146). -/
def PendingBehindActive (s : State) : Prop := s.part.hre.active = none → s.part.hre.pending = none

/-- The settings values lie within the bits of their fields (R174, R175). -/
def WithinSettings (v : List Int) : Prop :=
  ∀ p f, settingsLayout[p]? = some f → f.low ≤ valueAt v p ∧ valueAt v p < f.low + 2 ^ f.width

/-- The accesses that the shaper has asked of the store and waits for (R177). -/
def shaperAccesses (s : State) : List AccessKind :=
  let current := (s.part.tst.current.toList.filter (!·.discard)).map (·.request)
  ((s.part.tst.waiting ++ current).filter (·.owner == .shaper)).map (·.kind)

/-- A period computation has asked for exactly the one read its stage waits for, and the settings values it works
with lie within the bits of their fields; without a computation the shaper has asked for nothing (R90, R174). -/
def ComputationWithinSettings (s : State) : Prop :=
  match s.part.msh.computation with
  | none => shaperAccesses s = []
  | some c =>
    match c.stage with
    | .settings => shaperAccesses s = [.entryRead .settings 0]
    | .zone v => WithinSettings v ∧ ∃ z, shaperAccesses s = [.entryRead .zone z]

/-- No arbiter has an answer that is not taken: a free store has no request waiting (R177), the bus is granted
where it can be (R126), and with no walk in progress the walk queue is empty (R139). -/
def ArbitersServed (s : State) : Prop :=
  (s.part.tst.current = none → s.part.tst.waiting = []) ∧ s.part.dbm.grantable = none ∧
  (s.part.hre.walk = none → s.part.hre.queue = [])

/-! ### Completion -/

/-- A command is safe in a state when it takes a next state. -/
def Completes (i : Instr) (s : State) : Prop := ∃ t, exec i s = .next t

/-- The access in progress, if there is one, names an entry or a word of the tables (R174). -/
def AccessInStore (p : Part) : Prop :=
  match p.tst.current with
  | none => True
  | some a =>
    match a.request.kind with
    | .entryRead t i => i < t.entries
    | .fullWrite t i _ => i < t.entries
    | .partialWrite t i _ _ => i < t.entries
    | .scrub n => n < Config.storeWords

/-- No frame of the receive buffer waits to be taken (R193). -/
def NoFrameWaits (s : State) : Prop := ∀ f ∈ s.part.plp.rx, f.status ≠ .waiting

/-- A frame that arrives is taken in the event of its arrival (R191 to R193): the buffer has room, every
frame in it has been answered, no RESTART has been answered, and no access of a request waits. -/
def PortReady (s : State) : Prop :=
  s.part.plp.rx.length < Config.receivePlaces ∧ (∀ f ∈ s.part.plp.rx, f.status = .answered) ∧
  s.part.plp.restarting = false ∧ ∀ q ∈ s.part.tst.waiting, q.owner ≠ .planner

/-! ### What a command does -/

/-- The frame of a request has been taken and answered in one event: its ANSWER is the last frame of the
transmit list, behind the NOTICEs of the event (R193, R196). -/
def Answered (s t : State) (tag : Byte) (code : AnswerCode) (data : List Byte) : Prop :=
  ∃ notices : List TxFrame,
    (∀ f ∈ notices, ∃ c gap entries, f = .notice c gap entries) ∧
    t.part.plp.tx = s.part.plp.tx ++ notices ++ [.answer tag code data]

/-- The frame of the request joined the receive buffer and keeps its place with the given status (R192). -/
def Received (s t : State) (kind tag : Byte) (body : List Byte) (status : RxStatus) : Prop :=
  t.part.plp.rx = s.part.plp.rx ++ [RxFrame.mk kind tag body status]

/-- A valid frame restarts the keep timer and makes the keep status ACTIVE (R19). -/
def KeepRestarted (s t : State) : Prop :=
  t.part.fcu = { s.part.fcu with keepTimer := some s.part.fcu.keepLimit, keepSilent := false }

/-- The frame of the request is all that has happened: the blocks behind the link, the table memory, the
part clock and the queue of commands are unchanged. -/
def BlocksKept (s t : State) : Prop :=
  t.mem = s.mem ∧ t.pending = s.pending ∧ t.part.clock = s.part.clock ∧ t.part.scr = s.part.scr ∧
  t.part.ltr = s.part.ltr ∧ t.part.sq = s.part.sq ∧ t.part.msh = s.part.msh ∧ t.part.dbm = s.part.dbm ∧
  t.part.sin = s.part.sin ∧ t.part.hre = s.part.hre ∧ t.part.rtu = s.part.rtu

/-- The table store with its memory is unchanged, too. -/
def StoreKept (s t : State) : Prop := t.mem = s.mem ∧ t.part.tst = s.part.tst

/-- A walk has been requested: the request waits in the walk queue or is being walked (R139). -/
def WalkRequested (t : State) (source : Source) (subject : Nat) (value : Int) : Prop :=
  WalkRequest.mk source subject value ∈ t.part.hre.queue ∨
    t.part.hre.walk.map (·.request) = some (WalkRequest.mk source subject value)

/-- An access has been asked of the store: it waits for the arbiter or is in progress (R177). -/
def AccessRequested (t : State) (owner : Owner) (kind : AccessKind) (reader : Reader) : Prop :=
  Request.mk owner kind reader ∈ t.part.tst.waiting ∨
    t.part.tst.current.map (·.request) = some (Request.mk owner kind reader)

/-- The entries listed, none of them urgent, have been handed to the Coalescer one after the other, and no others: the
class buffers, and each class's NOTICEs in the transmit list, are as these entries leave them (R197, R198). -/
def EntriesAdded (s t : State) (entries : List (EntryKind × Nat × Nat)) : Prop :=
  let p := entries.foldl (fun p e => p.addEntry e.1 e.2.1 e.2.2) s.part
  t.part.nco = p.nco ∧ ∀ c, noticesOf c t.part.plp.tx = noticesOf c p.plp.tx

/-- The working copies that the settings read of R137 and every applied settings write load hold the settings values
(R137, R175, R197). The order of the class limits is log 44, the copy of the maneuver speed log 46. -/
def CopiesHold (t : State) (v : List Int) : Prop :=
  let p := t.part
  let limits := fun (b : ClassBuffer) (first : Nat) =>
    b.batch = settingOf v first ∧ b.holdLimit = settingOf v (first + 1) ∧ b.quietLimit = settingOf v (first + 2)
  p.fcu.keepLimit = settingOf v 0 ∧ p.fcu.silentAction = (if settingOf v 1 = 0 then .halt else .home) ∧
  p.ltr.spacing = settingOf v 2 ∧ p.sq.refillMark = settingOf v 3 ∧ p.msh.maneuverSpeed = settingOf v 11 ∧
  p.msh.kilotick = settingOf v 14 ∧
  p.sin.limits = ⟨settingOf v 17, settingOf v 18, settingOf v 19, settingOf v 20, settingOf v 21⟩ ∧
  p.rtu.copies =
    { loop := settingOf v 23, interior := if valueAt v 24 = 0 then .left else .right, target := valueAt v 25
      approachLimit := settingOf v 27, threshold := settingOf v 28, settle := settingOf v 29
      backoff := settingOf v 30, retries := settingOf v 31 } ∧
  p.nco.urgentLevel = settingOf v 32 ∧ limits p.nco.classes.motion 33 ∧ limits p.nco.classes.hazard 36 ∧
  limits p.nco.classes.field 39 ∧ limits p.nco.classes.store 42

/-- The working copies of `CopiesHold` are unchanged. -/
def CopiesKept (s t : State) : Prop :=
  let p := s.part
  let q := t.part
  let same := fun a b : ClassBuffer => b.batch = a.batch ∧ b.holdLimit = a.holdLimit ∧ b.quietLimit = a.quietLimit
  q.fcu.keepLimit = p.fcu.keepLimit ∧ q.fcu.silentAction = p.fcu.silentAction ∧ q.ltr.spacing = p.ltr.spacing ∧
  q.sq.refillMark = p.sq.refillMark ∧ q.msh.maneuverSpeed = p.msh.maneuverSpeed ∧
  q.msh.kilotick = p.msh.kilotick ∧ q.sin.limits = p.sin.limits ∧ q.rtu.copies = p.rtu.copies ∧
  q.nco.urgentLevel = p.nco.urgentLevel ∧ ∀ c, same (p.nco.classes.get c) (q.nco.classes.get c)

/-- The drive bus master's copies hold the settings values (R131). -/
def BusCopiesHold (t : State) (v : List Int) : Prop :=
  t.part.dbm.responseLimit = settingOf v 15 ∧ t.part.dbm.holdLimit = settingOf v 16

/-- The scrub's copy of its period is the given one, and the scrub timer has been started with it; a period of 0
leaves it stopped (R188). -/
def ScrubStarted (t : State) (period : Nat) : Prop :=
  t.part.tst.scrubPeriod = period ∧ t.part.tst.scrubTimer = if period = 0 then none else some period

/-- What every reset leaves, but for the table store (R21, R45, R69, R88, R110, R132, R137, R157, R173,
R200). -/
def BlocksReset (k : ResetKind) (t : State) : Prop :=
  t.part.fcu = { stopCause := k.stopCause } ∧ t.part.scr = {} ∧ t.part.ltr = {} ∧ t.part.sq = {} ∧
  t.part.msh = {} ∧ t.part.dbm = {} ∧ t.part.sin = {} ∧ t.part.hre = {} ∧ t.part.rtu = {} ∧
  t.part.plp = { tx := [.started k] } ∧ t.part.nco = {} ∧ t.part.clock = 0

/-- The Coalescer is unchanged but for the KEEP_STATE entry that the arrival of a valid frame adds when it ends
a silence (R19), which belongs to the class FIELD. -/
def NoticesKept (s t : State) : Prop :=
  (s.part.fcu.keepSilent = false → t.part.nco = s.part.nco) ∧
  t.part.nco.urgentLevel = s.part.nco.urgentLevel ∧
  ∀ c, c ≠ .field → t.part.nco.classes.get c = s.part.nco.classes.get c

/-- A request that is answered in the event of its arrival, and changes nothing else: only the keep timer and
status, the port, and the notice of R19 show that it came. -/
def OnlyAnswered (s t : State) (kind tag : Byte) (body : List Byte) (code : AnswerCode)
    (data : List Byte) : Prop :=
  Answered s t tag code data ∧ Received s t kind tag body .answered ∧ KeepRestarted s t ∧
  NoticesKept s t ∧ BlocksKept s t ∧ StoreKept s t

/-- A request that has become an operation with a store read, and has changed nothing else yet (R193). -/
def InHand (s t : State) (kind tag : Byte) (body : List Byte) (op : PlannerOp) : Prop :=
  t.part.plp.op = some op ∧ Received s t kind tag body .inHand ∧ KeepRestarted s t ∧ NoticesKept s t ∧
  BlocksKept s t ∧ t.mem = s.mem

/-- A stop has been asked of a node: it stands in the node's slot or is the exchange in hand (R122, R123). -/
def StopAsked (t : State) (n : Fin 3) : Prop :=
  (t.part.node n).slot.stop = true ∨ (t.part.node n).inHand.map (·.transfer.isStop) = some true

/-- A SETPOINT has been passed to a wheel: it stands in the node's slot or is the exchange in hand (R122). -/
def SetpointAsked (t : State) (n : Fin 3) (speed : Int) (lookahead : Option Int) : Prop :=
  (t.part.node n).slot.setpoint = some (speed, lookahead) ∨
    (t.part.node n).inHand.map (·.transfer) = some (.setpoint speed lookahead)

/-- An arm has been asked of the blade: it stands in the slot or its guard read is the exchange in hand
(R123, R127). -/
def ArmAsked (t : State) (level : Nat) : Prop :=
  (t.part.node 2).slot.arm = some level ∨
    (t.part.node 2).inHand.map (·.transfer) = some (.guardRead level)

/-- A BLADE_STATUS has been asked for: it is wanted or is the exchange in hand (R123). -/
def StatusAsked (t : State) : Prop :=
  (t.part.node 2).statusWanted = true ∨ (t.part.node 2).inHand.map (·.transfer) = some .bladeStatus

/-- An answer has the address and the number of the try on the wire and passes the frame check (R114); `grant`
says whether that try is a report grant's. -/
def AnswersTheTry (s : State) (a : NodeAnswer) (grant : Bool) : Prop :=
  (∃ left, s.part.dbm.bus = .wire a.node grant a.number left) ∧ a.frameOk = true

/-- The hold limit of a holding node has passed since its hold start (R117). -/
def HoldPassed (s : State) (n : Fin 3) : Prop :=
  (s.part.node n).standing = .holding ∧ ∃ h, (s.part.node n).hold = some h ∧ h.left = 0

/-- What an answer to a report grant reports has been requested as a walk; without a report nothing has changed in
the rule engine (R119). -/
def ReportTaken (s t : State) (a : NodeAnswer) : Prop :=
  match a.report with
  | .none => t.part.hre = s.part.hre
  | .stall =>
    WalkRequested t (if a.node = 2 then .bladeCurrent else .wheelStall) a.node.val a.reportValue.toNat
  | .overcurrent =>
    if a.node = 2 then WalkRequested t .bladeCurrent 2 a.reportValue.toNat
    else WalkRequested t .driveFault a.node.val 5
  | .overtemp => WalkRequested t .driveFault a.node.val 6
  | .encoderFault => WalkRequested t .driveFault a.node.val 7

/-- The part has stopped: a stop is asked of every node that is not LOST, the shaper's previous setpoints
are 0 and blade permission is no (R13). -/
def Stopped (s t : State) : Prop :=
  (∀ n, (s.part.node n).standing ≠ .lost → StopAsked t n) ∧
  t.part.msh.previousLeft = 0 ∧ t.part.msh.previousRight = 0 ∧ t.part.fcu.permission = false

/-- No response is active or pending (R149). -/
def NoResponse (t : State) : Prop := t.part.hre.active = none ∧ t.part.hre.pending = none

/-- A granted entry read of a block is in progress, in store mode NORMAL (R177). -/
def ReadGranted (s : State) (owner : Owner) (t : Table) (i : Nat) (reader : Reader) : Prop :=
  s.part.tst.current = some ⟨⟨owner, .entryRead t i, reader⟩, .normal, false⟩ ∧ i < t.entries

/-- An entry that a read finds usable: it is not poisoned, and every word of it has syndrome 0 (R176, R183). -/
def Sound (s : State) (t : Table) (i : Nat) : Prop :=
  s.part.tst.poisoned.get t i = false ∧ ∀ w ∈ s.mem.readEntry t i, w.syndrome = 0

/-- What a period computation passes and leaves, from the settings values v and the current zone's entry where it
can be used: the terms of the effective cap, the targets of the source with the steering of a FOLLOW
source, the setpoints with the lookahead, and the error memory (R90 to R103). `speed` is the shaper's copy of the
maneuver speed behind the event (log 46). -/
def PeriodPassed (s t : State) (c : Computation) (v : List Int) (entry : Option (List Int)) (speed : Nat) :
    Prop :=
  let term := fun (zonePosition setting : Nat) =>
    match entry with
    | some e => if valueAt e 0 ≠ 0 then valueAt e zonePosition else valueAt v setting
    | none => valueAt v setting
  let slopeCap :=
    match s.part.sin.attitude with
    | none => term 2 4 / 4
    | some x =>
      let slope : Int := (max x.pitch.natAbs x.roll.natAbs : Nat)
      if s.part.sin.stale.s2 = true then term 2 4 / 4
      else if slope ≤ term 4 5 then term 2 4
      else if term 5 6 ≤ slope then 0
      else term 2 4 * (term 5 6 - slope) / (term 5 6 - term 4 5)
  let slowCap : Int :=
    match s.part.hre.active with
    | some a => if a.response.action = .slow then (a.response.cap : Int) else 1500
    | none => 1500
  let homing : Int := if s.part.fcu.homing = true then valueAt v 12 else 1500
  let docking : Int := if s.part.fcu.docking = true then valueAt v 13 else 1500
  let cap := min 1500 (min (term 2 4) (min slopeCap (min slowCap (min homing docking))))
  let raw : (Int × Int) × Option Int :=
    match s.part.motionDrive v with
    | .straight x => ((x, x), s.part.msh.errorMemory)
    | .arc x ratio .left => ((x * ratio / 256, x), s.part.msh.errorMemory)
    | .arc x ratio .right => ((x, x * ratio / 256), s.part.msh.errorMemory)
    | .spin x .left => ((-(x.natAbs : Int), (x.natAbs : Int)), s.part.msh.errorMemory)
    | .spin x .right => (((x.natAbs : Int), -(x.natAbs : Int)), s.part.msh.errorMemory)
    | .still => ((0, 0), s.part.msh.errorMemory)
    | .follow x loop interior target =>
      let (state, offset, age) := s.part.ltr.follow loop
      if state = .lost then ((0, 0), none)
      else
        let err := (if interior = .left then offset else -offset) - target
        let memory := if c.fresh = true then err else s.part.msh.errorMemory.getD err
        let delta := max (-(valueAt v 10)) (min (valueAt v 10)
          (roundHalfAway (valueAt v 8 * err + valueAt v 9 * (err - memory)) 64))
        let base := if age ≤ 2 then x else max (-(cap / 2)) (min (cap / 2) x)
        ((base - delta, base + delta), some err)
  let target := shiftClamp cap raw.1
  let left := ramp cap (valueAt v 7) s.part.msh.previousLeft target.1
  let right := ramp cap (valueAt v 7) s.part.msh.previousRight target.2
  let ahead := s.part.lookahead cap
  t.part.msh = { s.part.msh with
    computation := none, previousLeft := left, previousRight := right, errorMemory := raw.2
    maneuverSpeed := speed } ∧
  ((s.part.node 0).standing ≠ .lost → SetpointAsked t 0 left (ahead.map Prod.fst)) ∧
  ((s.part.node 1).standing ≠ .lost → SetpointAsked t 1 right (ahead.map Prod.snd))

/-- The field values that the words of an entry hold (R174). -/
def storedFields (s : State) (t : Table) (i : Nat) : List Int :=
  entryFields t ((s.mem.readEntry t i).map (·.data))

/-- The TABLE_WRITE command of a table. -/
def tableWriteCommand (t : Table) (tag index : Byte) (mask : BitVec 64) (block : List Byte) : Instr :=
  match t with
  | .loopCode => .tableWriteLoopCode tag index mask block
  | .rule => .tableWriteRule tag index mask block
  | .zone => .tableWriteZone tag index mask block
  | .passage => .tableWritePassage tag index mask block
  | .settings => .tableWriteSettings tag index mask block

/-- The checks of a TABLE_WRITE before the table's own: the field mask, the index, for the settings the silent
action, and for a protected table the mode (R195, R27, R141). -/
def WriteAdmitted (s : State) (t : Table) (index : Byte) (mask : BitVec 64) (block : List Byte) : Prop :=
  maskOk t mask = true ∧ index.toNat < t.entries ∧
  (t = .settings → namedInRange t mask (carriedValues t block) 1 = true) ∧
  (t.isProtected = true → s.part.fcu.mode.permitsProtected = true)

end Sys2Proof
end

