-- ==== Sys2Proof/Certificates/Slice0/Obligations.lean ====
section
/-! DEFINITION. The statements about the part, from the numbered rules of spec/. The conventions they use
(`PortReady`, `Answered`, `ReadGranted`, `Sound`, …) stand in Sys2Proof/Safety.lean. -/

section

open Sys2Proof Sys2Proof.Machine

/-! ### Steps -/

/-- A step takes the command at the front of the queue and answers what it comes to on the queue's rest. -/
def Obligations.StepRunsTheFrontCommand : Prop :=
  ∀ (c : Instr) (rest : List Instr) (s : State),
    step { s with pending := c :: rest } = exec c { s with pending := rest }

/-- With no command waiting, a step delivers the first expiry that is due, and with none due it lets one
millisecond of the part clock pass: every running timer loses one, and nothing else changes. The model's choice
(log 3). -/
def Obligations.IdleStepIsAnExpiryOrOneMillisecond : Prop :=
  ∀ s : State, s.pending = [] →
    let p := s.part
    let less := fun x : Option Nat => x.map (· - 1)
    let node := fun d : Node => { d with hold := d.hold.map fun h => { h with left := h.left - 1 } }
    let buffer := fun b : ClassBuffer =>
      { b with holdTimer := less b.holdTimer, quietTimer := less b.quietTimer }
    (∀ i, firstDue p.expiries = some i → step s = exec i s) ∧
    (firstDue p.expiries = none →
      step s = .next
        { s with
          part := { p with
            clock := p.clock + 1
            fcu.keepTimer := less p.fcu.keepTimer
            msh.periodTimer := less p.msh.periodTimer
            dbm.nodes := ⟨node p.dbm.nodes.n0, node p.dbm.nodes.n1, node p.dbm.nodes.n2⟩
            dbm.bus := match p.dbm.bus with
              | .wire n grant number left => .wire n grant number (left - 1)
              | .free => .free
              | .reserved => .reserved
            sin.timers :=
              ⟨less p.sin.timers.s0, less p.sin.timers.s1, less p.sin.timers.s2, less p.sin.timers.s3,
               less p.sin.timers.s4⟩
            hre.active := p.hre.active.map fun a => { a with timer := less a.timer }
            tst.scrubTimer := less p.tst.scrubTimer
            nco.classes :=
              ⟨buffer p.nco.classes.motion, buffer p.nco.classes.hazard, buffer p.nco.classes.field,
               buffer p.nco.classes.store⟩ } })

/-- Every command takes a next state while the access in progress, if there is one, names an entry or a word of
the tables (R174). The one fault is that of a completion of an access which names none, and no command is
refused (log 13). -/
def Obligations.CommandsCompleteInTheStore : Prop :=
  ∀ (c : Instr) (s : State),
    (AccessInStore s.part → Completes c s) ∧
    (∀ f, exec c s = .fault f → f = .noSuchWord ∧ ¬ AccessInStore s.part ∧
      (c = .entryReadDone ∨ c = .fullEntryWriteDone ∨ c = .partialWriteDone ∨ c = .scrubAccessDone)) ∧
    ∀ r, exec c s ≠ .refused r

/-- Commands that have nothing to act on leave a quiet state as it is: the expiry of a stopped timer, an answer
that R114 ignores, a silent try with nothing on the wire, a ready signal or hold limit of a node that does not
hold, the completion of an access that is not in progress, and the end of a sending with nothing to send. So
does a request's frame that arrives while the receive buffer holds 4 frames, which is discarded (R19, R191,
R192), and a sync byte with a length byte above 250 behind it, which is no frame (R191), where the hunt holds no
bytes. That a command with nothing to act on changes nothing is the model's choice for the kinds listed first, up
to the end of a sending with nothing to send, but for the answer, which R114 ignores (log 27). -/
def Obligations.CommandsWithNothingToActOn : Prop :=
  ∀ s : State, Quiet s →
    (s.part.fcu.keepTimer = none → exec .keepTimerExpiry s = .next s) ∧
    (∀ n, s.part.sin.timers.get n = none → exec (.sensorStale n) s = .next s) ∧
    (s.part.hre.active = none → exec .responseHoldExpiry s = .next s) ∧
    (∀ a, s.part.dbm.takes a = none → exec (.nodeAnswer a) s = .next s) ∧
    (s.part.dbm.bus = .free ∨ s.part.dbm.bus = .reserved → exec .responseTimeout s = .next s) ∧
    (∀ n, (s.part.node n).standing ≠ .holding →
      exec (.readySignal n) s = .next s ∧ exec (.holdLimitExpiry n) s = .next s) ∧
    (s.part.tst.current = none →
      exec .entryReadDone s = .next s ∧ exec .fullEntryWriteDone s = .next s ∧
      exec .partialWriteDone s = .next s ∧ exec .scrubAccessDone s = .next s) ∧
    (s.part.tst.scrubTimer = none → exec .scrubExpiry s = .next s) ∧
    (∀ c, (s.part.nco.classes.get c).holdTimer = none → exec (.noticeHoldExpiry c) s = .next s) ∧
    (∀ c, (s.part.nco.classes.get c).quietTimer = none → exec (.noticeQuietExpiry c) s = .next s) ∧
    (s.part.plp.tx = [] → exec .frameSent s = .next s) ∧
    (s.part.plp.hunt = [] →
      (∀ kind tag body, s.part.plp.rx.length = 4 → s.request kind tag body = .next s) ∧
      ∀ length, 250 < length.toNat → exec (.syncHunt length) s = .next s)

/-! ### Resets -/

/-- What stands in every field of State right after power-on (R21, R45, R69, R88, R110, R132, R137, R157, R173,
R190, R200). The model's choices are: the zone's blade maximum, the level to send, the dock parameters and the
hunt's bytes (log 15), the order of the two settings reads that the reset asks for, the first already granted
(log 5), the copy of the maneuver speed (log 46), and the model's own counters and marks (log 4, log 11, log
31). -/
def Obligations.ResetValues : Prop :=
  let coil : CoilSide := { side := none, candidate := none, agree := 0 }
  let track : LoopTrack :=
    { tracked := false, role := none, confirm := 1, lossLimit := 1, left := coil, right := coil, miss := 0,
      lost := false, combined := .unseen, previous := .unseen, offset := 0, age := 255 }
  let wheel : Wheel := { reference := none, referenceTime := 0, carry := 0, distance := 0 }
  let node := fun (inHand : Option Exchange) (stop : Bool) =>
    ({ standing := .unchecked, inHand := inHand, suspended := false, superseded := false, hold := none,
       slot := { stop := stop, setpoint := none, arm := none }, reportOwed := false, grant := none,
       statusWanted := false, lastPayload := none } : Node)
  let dock : DockParams :=
    { loop := 0, interior := .left, target := 0, approachLimit := 3000, threshold := 20000, settle := 3,
      backoff := 400, retries := 3 }
  let buffer := fun batch holdLimit quietLimit =>
    ({ entries := [], holdTimer := none, quietTimer := none, gap := false, due := false, batch := batch,
       holdLimit := holdLimit, quietLimit := quietLimit } : ClassBuffer)
  State.reset =
    { part :=
        { fcu :=
            { mode := .idle, resume := none, stopCause := .none, hazardLevel := 0, blade := .off,
              armRefused := false, permission := false, keepSilent := false, keepTimer := none,
              keepLimit := 500, silentAction := .halt, zoneBladeMax := 0, levelToSend := 0 }
          scr :=
            { readings :=
                ⟨⟨none, none⟩, ⟨none, none⟩, ⟨none, none⟩, ⟨none, none⟩,
                 ⟨none, none⟩, ⟨none, none⟩, ⟨none, none⟩, ⟨none, none⟩⟩
              lastFrame := none, processing := none, waiting := none }
          ltr :=
            { tracks := ⟨track, track, track, track, track, track, track, track⟩
              zone := none, lastZone := none, eval := none, reevaluate := false, spacing := 240 }
          sq := { queue := [], active := false, refillArmed := true, starvedArmed := true, refillMark := 8 }
          msh :=
            { previousLeft := 0, previousRight := 0, errorMemory := none, source := none, credited := none,
              wheels := ⟨wheel, wheel⟩, odometer := 0, odometerCarry := 0, progress := 0,
              progressCarry := 0, periodTimer := some 20, computation := none, kilotick := 188
              maneuverSpeed := 250 }
          dbm :=
            { nodes :=
                ⟨node (some { transfer := .stop, tries := 1, held := false, refused := false }) false,
                 node none true, node none true⟩
              bus := .wire 0 false 1 2, interlock := .none, number := 1, resetStops := ⟨true, true, true⟩
              responseLimit := 2, holdLimit := 50 }
          sin :=
            { bumper := none, attitude := none, range := none, environment := none
              stale := ⟨false, false, false, false, false⟩
              timers := ⟨some 50, some 300, some 100, some 200, some 1000⟩
              limits := ⟨50, 300, 100, 200, 1000⟩ }
          hre := { queue := [], walk := none, active := none, pending := none }
          rtu :=
            { stack := [], overflow := false, crossings := [], applying := none, planDue := false,
              planning := none, leg := none, activity := .none, params := dock, distance := 0,
              finalApproach := false, dockKey := 0, attempts := 0, settle := 0, copies := dock }
          tst :=
            { poisoned := { zones := 0, passages := 0, settings := false }
              mode := .normal, pattern := 0, capture := none
              log := { single := false, uncorrectable := false, location := none }
              scrubPointer := 0, scrubTimer := none, scrubPeriod := 50
              waiting := [{ owner := .scrubCopy, kind := .entryRead .settings 0, reader := .scrub }]
              current := some
                { request := { owner := .copies, kind := .entryRead .settings 0, reader := .ruleWalk }
                  mode := .normal, discard := false } }
          plp := { hunt := [], rx := [], op := none, restarting := false, tx := [.started .powerOn] }
          nco :=
            { classes := ⟨buffer 4 200 50, buffer 1 0 0, buffer 6 500 100, buffer 12 1000 0⟩
              urgentLevel := 12 }
          clock := 0, serial := 0, free := 0
          agenda :=
            { blade := false, deferral := false, source := false, removed := false, starved := false,
              returning := false,
              period := false, walk := false, bus := false, store := false, port := false, held := false,
              frames := 0 } }
      mem := [], pending := [] }

/-- POWER_ON and RESET_LINE reset every block. Power-on gives the tables their power-on words, clears the
poisoned marks, the error log, the check capture and the test pattern; the RESET line keeps the words and the
poisoned marks (R21, R190). After power-on every entry of the five tables holds the power-on values of its
fields, and every word the check bits generated from its data (R174). The whole blocks are fixed, with them the
model's choices of log 15 (the zone's blade maximum, the level to send, the dock parameters, the hunt), of log 5
(the order of the two settings reads) and of log 46 (the copy of the maneuver speed). -/
def Obligations.ResetsLeaveTheirValues : Prop :=
  (∀ s : State,
     (∃ t, exec .powerOn s = .next t ∧ BlocksReset .powerOn t ∧ t.part.tst = State.reset.part.tst ∧
       t.mem = [] ∧ t.pending = s.pending) ∧
     (∃ t, exec .resetLine s = .next t ∧ BlocksReset .resetLine t ∧ t.mem = s.mem ∧
       t.part.tst = { State.reset.part.tst with poisoned := s.part.tst.poisoned } ∧
       t.pending = s.pending)) ∧
  (∀ s t, exec .powerOn s = .next t →
     ∀ tab i, i < tab.entries →
       storedFields t tab i = defaultFields tab ∧ ∀ w ∈ t.mem.readEntry tab i, w.syndrome = 0)

/-- RESTART is answered OK in every mode before its reset takes effect, and the port takes no further frame. The
end of the sending of that ANSWER is the reset: it keeps the table words, the poisoned marks, the error log, the
check capture and the test pattern (R21, R190, R193, R194). The blocks are fixed whole, with them the model's
choices of log 15 (values the spec does not give), log 5 (the order of the two settings reads) and log 46 (the copy
of the maneuver speed). -/
def Obligations.RestartIsAnsweredAndThenResets : Prop :=
  (∀ (tag : Byte) (s : State), PortReady s →
    ∃ t, exec (.restart tag) s = .next t ∧ OnlyAnswered s t 9 tag [] .ok [] ∧
      t.part.plp.restarting = true ∧ t.part.plp.nextFrame = none) ∧
  (∀ (s : State) (tag : Byte) (data : List Byte) (f : RxFrame) (frames : List TxFrame)
    (behind : List RxFrame),
    s.part.plp.restarting = true → s.part.plp.rx = f :: behind → f.kind = 9 →
    s.part.plp.tx = .answer tag .ok data :: frames →
    ∃ t, exec .frameSent s = .next t ∧ BlocksReset .restart t ∧ t.mem = s.mem ∧ t.pending = s.pending ∧
      t.part.tst =
        { State.reset.part.tst with
          poisoned := s.part.tst.poisoned
          log := s.part.tst.log
          capture := s.part.tst.capture
          pattern := s.part.tst.pattern })

/-! ### The planner link -/

/-- KEEP is answered OK with no data. It restarts the keep timer, and when the keep status was SILENT it makes
it ACTIVE with a KEEP_STATE entry, which is pending or in a NOTICE of the event (R19, R194). -/
def Obligations.KeepRestartsTheKeepTimer : Prop :=
  ∀ (tag : Byte) (s : State), PortReady s →
    ∃ t, exec (.keep tag) s = .next t ∧ OnlyAnswered s t 0 tag [] .ok [] ∧
      (s.part.fcu.keepSilent = true →
        (⟨.keepState, 0, 0, s.part.clock⟩ : Entry) ∈ t.part.nco.classes.field.entries ∨
        ∃ gap entries, TxFrame.notice .field gap entries ∈ t.part.plp.tx ∧
          (⟨.keepState, 0, 0, s.part.clock⟩ : Entry) ∈ entries)

/-- STATUS is answered OK with the status record as it stands, byte by byte by the layout of section 10.5 and
the codes of R1, R51, R111 and R179, and changes nothing (R194). The request's own arrival has made the keep
status ACTIVE (R19). A yes is sent as 1 (log 10), and byte 7 shows the arm-refused mark in every blade state
(log 39). -/
def Obligations.StatusAnswersTheRecord : Prop :=
  ∀ (tag : Byte) (s : State), PortReady s →
    let p := s.part
    let yes := fun b : Bool => if b then (1 : Byte) else 0
    let zone := fun z : Option Nat => BitVec.ofNat 8 (z.getD 255)
    let mode : Byte := match p.fcu.mode with
      | .idle => 0 | .run => 1 | .maneuver => 2 | .homing => 3
      | .docking => 4 | .docked => 5 | .halted => 6 | .safe => 7
    let resume : Byte := match p.fcu.resume with
      | none => 255 | some .run => 1 | some .homing => 3 | some .docking => 4
    let cause : Byte := match p.fcu.stopCause with
      | .none => 0 | .command => 1 | .hazard _ => 2 | .outsideBuiltin => 3 | .linkSilent => 4
      | .tableFault => 5 | .nodeLost => 6 | .homeFailed => 7 | .dockFailed => 8 | .resetLine => 9
      | .restart => 10
    let rule : Byte := match p.fcu.stopCause with
      | .hazard i => BitVec.ofNat 8 i
      | _ => 255
    let blade : Byte × Byte := match p.fcu.blade with
      | .off => (0, 0) | .arming => (1, 0) | .spinning level => (2, BitVec.ofNat 8 level)
      | .stopping => (3, 0)
    let standing := fun n => match (p.node n).standing with
      | .unchecked => (0 : Byte) | .online => 1 | .holding => 2 | .lost => 3
    let combined := fun i => match (p.ltr.tracks.get i).combined with
      | .unseen => (0 : Byte) | .inside => 1 | .outside => 2 | .crossLR => 3 | .crossRL => 4 | .lost => 5
    let store : Byte := match p.tst.mode with
      | .normal => 0 | .detectOnly => 1 | .test => 2
    ∃ t data, exec (.status tag) s = .next t ∧ OnlyAnswered s t 1 tag [] .ok data ∧ data.length = 51 ∧
      data.take 13 =
        [mode, resume, cause, rule, BitVec.ofNat 8 p.fcu.hazardLevel, blade.1, blade.2,
         yes p.fcu.armRefused, yes p.fcu.permission, 0, zone p.ltr.zone, zone p.ltr.lastZone,
         BitVec.ofNat 8 p.sq.queue.length] ∧
      (∀ i : Fin 8, (data.drop (13 + 4 * i.val)).take 4 =
        [combined i, (BitVec.ofInt 16 (p.ltr.tracks.get i).offset).extractLsb' 8 8,
         (BitVec.ofInt 16 (p.ltr.tracks.get i).offset).extractLsb' 0 8,
         BitVec.ofNat 8 (p.ltr.tracks.get i).age]) ∧
      data.drop 45 =
        [standing 0, standing 1, standing 2, store, yes p.tst.log.single, yes p.tst.log.uncorrectable]

/-- A COLLECT of a class answers OK with the class's pending entries and its gap mark, sent as 1 or 0 (log 10),
and leaves the class's buffer empty, its timers stopped, its marks clear; the other classes and the urgent level
are unchanged. A class code above 3 is refused BAD_VALUE (R199). Where the arrival ends a silence, it has first
added the KEEP_STATE entry of R19 to the class FIELD. -/
def Obligations.CollectEmptiesItsClass : Prop :=
  ∀ (tag code : Byte) (s : State), PortReady s →
    (∀ c, NoticeClass.ofCode code = some c →
      ∃ t, exec (.collect tag code) s = .next t ∧
        (let b :=
          if c = .field ∧ s.part.fcu.keepSilent = true then
            (s.part.begin.requestArrived 8 tag [code]).nco.classes.get .field
          else s.part.nco.classes.get c
         Answered s t tag .ok
          (code :: byte b.entries.length :: (if b.gap then 1 else 0) :: b.entries.flatMap Entry.bytes)) ∧
        (let b := t.part.nco.classes.get c
         b.entries = [] ∧ b.holdTimer = none ∧ b.quietTimer = none ∧ b.gap = false ∧ b.due = false) ∧
        (∀ d, d ≠ c → (d ≠ .field ∨ s.part.fcu.keepSilent = false) →
          t.part.nco.classes.get d = s.part.nco.classes.get d) ∧
        (c ≠ .field → s.part.fcu.keepSilent = true →
          (⟨.keepState, 0, 0, s.part.clock⟩ : Entry) ∈ t.part.nco.classes.field.entries ∨
          ∃ gap entries, TxFrame.notice .field gap entries ∈ t.part.plp.tx ∧
            (⟨.keepState, 0, 0, s.part.clock⟩ : Entry) ∈ entries) ∧
        t.part.nco.urgentLevel = s.part.nco.urgentLevel ∧
        Received s t 8 tag [code] .answered ∧ KeepRestarted s t ∧ BlocksKept s t ∧ StoreKept s t) ∧
    (3 < code.toNat →
      ∃ t, exec (.collect tag code) s = .next t ∧ OnlyAnswered s t 8 tag [code] .badValue [])

/-- The three parts of a STORE_CONTROL. A store mode above 2 and a test pattern above 127 are refused BAD_VALUE,
a change to DETECT_ONLY or TEST in a moving mode WRONG_MODE, and nothing else changes. One that passes sets its
part of the store and nothing else of it, and its answer begins with the store mode and test pattern as they
then stand and the flags of the log as they stood (R179). A yes is sent as 1 (log 10). -/
def Obligations.StoreControlSetsItsPart : Prop :=
  ∀ (tag v : Byte) (s : State), PortReady s →
    (∀ m, StoreMode.ofCode v = some m → (m = .normal ∨ s.part.fcu.mode.moving = false) →
      ∃ t data, exec (.storeModeSet tag v) s = .next t ∧
        t.part.tst = { s.part.tst with mode := m } ∧
        Answered s t tag .ok
          ([v, byte s.part.tst.pattern.toNat, flag s.part.tst.log.single,
            flag s.part.tst.log.uncorrectable] ++ data) ∧
        KeepRestarted s t ∧ NoticesKept s t ∧ BlocksKept s t) ∧
    (∀ m, StoreMode.ofCode v = some m → m ≠ .normal → s.part.fcu.mode.moving = true →
      ∃ t, exec (.storeModeSet tag v) s = .next t ∧ OnlyAnswered s t 7 tag [1, v, 0] .wrongMode []) ∧
    (2 < v.toNat →
      ∃ t, exec (.storeModeSet tag v) s = .next t ∧ OnlyAnswered s t 7 tag [1, v, 0] .badValue []) ∧
    (v.toNat ≤ 127 →
      ∃ t data, exec (.testPatternSet tag v) s = .next t ∧
        t.part.tst = { s.part.tst with pattern := BitVec.ofNat 7 v.toNat } ∧
        Answered s t tag .ok
          ([byte s.part.tst.mode.code, v, flag s.part.tst.log.single,
            flag s.part.tst.log.uncorrectable] ++ data) ∧
        KeepRestarted s t ∧ NoticesKept s t ∧ BlocksKept s t) ∧
    (127 < v.toNat →
      ∃ t, exec (.testPatternSet tag v) s = .next t ∧ OnlyAnswered s t 7 tag [2, 0, v] .badValue []) ∧
    (∃ t data, exec (.clearLog tag) s = .next t ∧
      t.part.tst = { s.part.tst with log := { single := false, uncorrectable := false, location := none } } ∧
      Answered s t tag .ok
        ([byte s.part.tst.mode.code, byte s.part.tst.pattern.toNat, flag s.part.tst.log.single,
          flag s.part.tst.log.uncorrectable] ++ data) ∧
      KeepRestarted s t ∧ NoticesKept s t ∧ BlocksKept s t)

/-- The end of the sending of a frame that is not a RESTART's ANSWER. It leaves the transmit list; an ANSWER's
request leaves the receive buffer; a NOTICE's class emits what has become pending, if its mark is set, and the
mark clears (R192, R196, R198). -/
def Obligations.FrameSentLeavesTheTransmitList : Prop :=
  ∀ (s : State) (frames : List TxFrame), Quiet s → NoFrameWaits s → s.part.plp.restarting = false →
    (∀ tag code data, s.part.plp.tx = .answer tag code data :: frames →
      exec .frameSent s =
        .next { s with part := { s.part with plp.tx := frames, plp.rx := s.part.plp.rx.drop 1 } }) ∧
    (∀ k, s.part.plp.tx = .started k :: frames →
      exec .frameSent s = .next { s with part := { s.part with plp.tx := frames } }) ∧
    (∀ c gap entries, s.part.plp.tx = .notice c gap entries :: frames →
      ((s.part.nco.classes.get c).due = false →
        exec .frameSent s = .next { s with part := { s.part with plp.tx := frames } }) ∧
      ((s.part.nco.classes.get c).due = true → (s.part.nco.classes.get c).entries ≠ [] →
        ∃ t, exec .frameSent s = .next t ∧
          t.part.plp.tx =
            frames ++ [.notice c (s.part.nco.classes.get c).gap (s.part.nco.classes.get c).entries] ∧
          (t.part.nco.classes.get c).entries = [] ∧ (t.part.nco.classes.get c).due = false))

/-- The bytes of a frame, received where the hunt holds none, are found as exactly that frame, whatever its
kind, tag and body of at most 250 bytes: sync byte, length, CRC and all (R191). -/
def Obligations.FrameBytesArriveAsTheirFrame : Prop :=
  ∀ (kind tag : Byte) (body : List Byte) (s : State), body.length ≤ 250 → s.part.plp.hunt = [] →
    ∃ t, exec (.plannerFrame (frameBytes kind tag body)) s = .next t ∧ s.request kind tag body = .next t

/-- A request row is the arrival of its frame, with the kind and the body that R194 and section 10.5 give it
(log 1). -/
def Obligations.RequestRowsAreTheirFrames : Prop :=
  ∀ (s : State) (tag a b : Byte) (tab : Table) (mask : BitVec 64) (block : List Byte)
    (segments : List SegmentBody),
    exec (.keep tag) s = s.request 0 tag [] ∧ exec (.status tag) s = s.request 1 tag [] ∧
    exec (.modeRun tag) s = s.request 2 tag [0] ∧ exec (.modeIdle tag) s = s.request 2 tag [1] ∧
    exec (.modeHome tag) s = s.request 2 tag [2] ∧ exec (.modeClear tag) s = s.request 2 tag [3] ∧
    exec (.planAppend tag segments) s =
      s.request 3 tag (byte segments.length :: segments.flatMap SegmentBody.bytes) ∧
    exec (.planFlush tag) s = s.request 4 tag [] ∧
    exec (tableWriteCommand tab tag a mask block) s =
      s.request 5 tag
        (byte tab.code :: a :: bytes4 (mask.toNat / 2 ^ 32) ++ bytes4 mask.toNat ++ block) ∧
    exec (.tableRead tag a b) s = s.request 6 tag [a, b] ∧
    exec (.storeModeSet tag a) s = s.request 7 tag [1, a, 0] ∧
    exec (.testPatternSet tag a) s = s.request 7 tag [2, 0, a] ∧
    exec (.clearLog tag) s = s.request 7 tag [4, 0, 0] ∧
    exec (.collect tag a) s = s.request 8 tag [a] ∧ exec (.restart tag) s = s.request 9 tag []

/-! ### Modes -/

/-- A MODE request is refused WRONG_MODE in every mode in which it is not taken, and MODE HOME in DOCKED is
answered OK and changes nothing (R4, R7). MODE RUN in IDLE or DOCKED, and MODE HOME in IDLE, go on to the entry
checks of R5: the request is in hand and the first loop code entry is asked for; nothing else has changed (R4,
R5, R193). That the checks begin with the read of loop code entry 0 is log 8. -/
def Obligations.ModeRequestsGoOnOrAreTurnedAway : Prop :=
  (∀ (tag : Byte) (s : State), PortReady s →
     (s.part.fcu.mode ≠ .idle → s.part.fcu.mode ≠ .docked →
       (∃ t, exec (.modeRun tag) s = .next t ∧ OnlyAnswered s t 2 tag [0] .wrongMode []) ∧
       (∃ t, exec (.modeHome tag) s = .next t ∧ OnlyAnswered s t 2 tag [2] .wrongMode [])) ∧
     (s.part.fcu.mode.moving = false →
       ∃ t, exec (.modeIdle tag) s = .next t ∧ OnlyAnswered s t 2 tag [1] .wrongMode []) ∧
     (s.part.fcu.mode ≠ .halted →
       ∃ t, exec (.modeClear tag) s = .next t ∧ OnlyAnswered s t 2 tag [3] .wrongMode []) ∧
     (s.part.fcu.mode = .docked →
       ∃ t, exec (.modeHome tag) s = .next t ∧ OnlyAnswered s t 2 tag [2] .ok [5])) ∧
  (∀ (tag : Byte) (s : State), PortReady s →
     (s.part.fcu.mode = .idle ∨ s.part.fcu.mode = .docked →
       ∃ t, exec (.modeRun tag) s = .next t ∧
         InHand s t 2 tag [0] (.entryCheck false (.loops 0 [])) ∧
         AccessRequested t .planner (.entryRead .loopCode 0) .plannerRead) ∧
     (s.part.fcu.mode = .idle →
       ∃ t, exec (.modeHome tag) s = .next t ∧
         InHand s t 2 tag [2] (.entryCheck true (.loops 0 [])) ∧
         AccessRequested t .planner (.entryRead .loopCode 0) .plannerRead))

/-- MODE IDLE taken in a moving mode: IDLE with stop cause COMMAND, the queue flushed, the responses cleared,
the leg and the dock approach dropped with the attempt count 0, the stack kept, the stops asked for, and the
answer OK (R8, R13). -/
def Obligations.ModeIdleStopsThePart : Prop :=
  ∀ (tag : Byte) (s : State), PortReady s → s.part.fcu.mode.moving = true →
    ∃ t, exec (.modeIdle tag) s = .next t ∧ t.part.fcu.mode = .idle ∧ t.part.fcu.resume = none ∧
      t.part.fcu.stopCause = .command ∧ t.part.sq.queue = [] ∧ NoResponse t ∧
      t.part.rtu.leg = none ∧ t.part.rtu.planning = none ∧
      t.part.rtu.activity = .none ∧ t.part.rtu.finalApproach = false ∧ t.part.rtu.attempts = 0 ∧
      t.part.rtu.stack = s.part.rtu.stack ∧ Stopped s t ∧
      TxFrame.answer tag .ok [0] ∈ t.part.plp.tx ∧
      t.mem = s.mem ∧ t.pending = s.pending ∧ t.part.clock = s.part.clock ∧ t.part.scr = s.part.scr ∧
      t.part.ltr = s.part.ltr ∧ t.part.sin = s.part.sin

/-- MODE CLEAR taken in HALTED: IDLE, the stop cause kept, a stop again, and the answer OK (R9, R13). -/
def Obligations.ModeClearLeavesHalted : Prop :=
  ∀ (tag : Byte) (s : State), PortReady s → s.part.fcu.mode = .halted →
    ∃ t, exec (.modeClear tag) s = .next t ∧ t.part.fcu.mode = .idle ∧
      t.part.fcu.stopCause = s.part.fcu.stopCause ∧ Stopped s t ∧ t.part.sq.queue = s.part.sq.queue ∧
      t.part.rtu.stack = s.part.rtu.stack ∧ TxFrame.answer tag .ok [0] ∈ t.part.plp.tx ∧
      t.mem = s.mem ∧ t.pending = s.pending ∧ t.part.clock = s.part.clock ∧ t.part.scr = s.part.scr ∧
      t.part.ltr = s.part.ltr ∧ t.part.sin = s.part.sin

/-- The entry checks of MODE RUN and MODE HOME, read by read, the last one first. The last read finds the dock
zone usable: with the store mode NORMAL, the machine inside the perimeter and the mode still IDLE or DOCKED, a
MODE RUN enters RUN with the queue kept, and a head that is no marker becomes active. A MODE HOME in IDLE enters
HOMING with the queue flushed, and is answered OK; a leg is planned from the zone it is in, or was last known
in, and without one homing fails in the same event. A check that fails refuses the request and changes nothing:
TABLES_INCOMPLETE for a loop code table that does not hold exactly one valid PERIMETER loop, a zone table
without a usable entry, an unusable settings entry, or a dock zone that is none or is not usable; STORE_TEST for
another store mode; NOT_INSIDE, for a MODE RUN, where the PERIMETER loop is not IN; WRONG_MODE where the mode
has changed meanwhile. A loop code entry found uncorrectable also takes the part to SAFE. Every other read goes
on to the next (R4 to R7, R12, R14, R76, R163, R164, R194). The order of the reads, the tests of the store mode,
the perimeter and the mode behind them are log 8; a dock zone of no zone's index is log 13. That the answer data is
the mode code as it stands right after the request, and so HOMING also where homing fails in the same event, is
log 24. Reads with a corrected single error are left out here. -/
def Obligations.EntryChecksStartOrRefuse : Prop :=

  (∀ (s : State) (z k : Nat) (f : RxFrame), ReadGranted s .planner .zone z .plannerRead → Sound s .zone z →
    (zoneEntryOf (storedFields s .zone z)).valid = true →
    s.part.plp.op = some (.entryCheck false (.dockZone k)) → s.part.plp.inHand = some f →
    s.part.tst.mode = .normal → s.part.ltr.insideAt k = true →
    (s.part.fcu.mode = .idle ∨ s.part.fcu.mode = .docked) → s.part.hre.active = none → NoFrameWaits s →
    ∃ t, exec .entryReadDone s = .next t ∧ t.part.fcu.mode = .run ∧ t.part.fcu.resume = none ∧
      t.part.fcu.stopCause = s.part.fcu.stopCause ∧ TxFrame.answer f.tag .ok [1] ∈ t.part.plp.tx ∧
      (∀ g rest, s.part.sq.queue = g :: rest → s.part.sq.active = false →
        (g.length ≠ 0 ∨ g.endCondition ≠ none) →
        t.part.sq.queue = g :: rest ∧ t.part.sq.active = true ∧ t.part.msh.progress = 0)) ∧
  (∀ (s : State) (z k : Nat) (f : RxFrame), ReadGranted s .planner .zone z .plannerRead → Sound s .zone z →
    (zoneEntryOf (storedFields s .zone z)).valid = true →
    s.part.plp.op = some (.entryCheck true (.dockZone k)) → s.part.plp.inHand = some f →
    s.part.tst.mode = .normal → s.part.fcu.mode = .idle → s.part.hre.active = none → NoFrameWaits s →
    let atRest := s.part.rtu.crossings = [] ∧ s.part.rtu.applying = none ∧ s.part.rtu.planning = none
    ∃ t, exec .entryReadDone s = .next t ∧ t.part.fcu.resume = none ∧ t.part.sq.queue = [] ∧
      TxFrame.answer f.tag .ok [3] ∈ t.part.plp.tx ∧ t.mem = s.mem ∧ t.pending = s.pending ∧
      (s.part.ltr.startZone ≠ none →
        t.part.fcu.mode = .homing ∧ t.part.fcu.stopCause = s.part.fcu.stopCause) ∧
      (∀ z', s.part.ltr.startZone = some z' → atRest → t.part.rtu.planning = some ⟨z', .settings⟩ ∧
        AccessRequested t .planning (.entryRead .settings 0) .returning) ∧
      (s.part.ltr.startZone = none → atRest →
        t.part.fcu.mode = .halted ∧ t.part.fcu.stopCause = .homeFailed ∧ Stopped s t)) ∧
  (∀ (s : State) (home : Bool) (stage : CheckStage) (m : StoreMode) (tab : Table) (i : Nat) (f : RxFrame),
    s.part.tst.current = some ⟨⟨.planner, .entryRead tab i, .plannerRead⟩, m, false⟩ → i < tab.entries →
    s.part.plp.op = some (.entryCheck home stage) → s.part.plp.inHand = some f →
    (∀ q ∈ s.part.tst.waiting, q.owner ≠ .planner) → NoFrameWaits s →
    let kept := fun t : State =>
      t.part.fcu = s.part.fcu ∧ t.part.sq = s.part.sq ∧ t.part.rtu = s.part.rtu ∧ t.part.hre = s.part.hre ∧
      t.part.msh = s.part.msh ∧ t.part.ltr = s.part.ltr ∧ t.part.dbm = s.part.dbm ∧ t.mem = s.mem ∧
      t.pending = s.pending
    let refused := fun code : AnswerCode =>
      ∃ t, exec .entryReadDone s = .next t ∧ kept t ∧ TxFrame.answer f.tag code [] ∈ t.part.plp.tx ∧
        t.part.plp.op = none
    let asks := fun (next : CheckStage) (tab' : Table) (i' : Nat) =>
      ∃ t, exec .entryReadDone s = .next t ∧ kept t ∧ t.part.plp.inHand = some f ∧
        t.part.plp.op = some (.entryCheck home next) ∧
        AccessRequested t .planner (.entryRead tab' i') .plannerRead
    let usable := Sound s .zone i ∧ (zoneEntryOf (storedFields s .zone i)).valid = true
    let unusable := s.part.tst.poisoned.get .zone i = true ∨
      Sound s .zone i ∧ (zoneEntryOf (storedFields s .zone i)).valid = false
    (∀ found, stage = .loops i found → tab = .loopCode →
      (Sound s .loopCode i →
        let e := loopEntryOf (storedFields s .loopCode i)
        let found' := if e.valid = true ∧ e.role = .perimeter then found ++ [i] else found
        (i < 7 → asks (.loops (i + 1) found') .loopCode (i + 1)) ∧
        (∀ k, i = 7 → found' = [k] → asks (.zones 0 k) .zone 0) ∧
        (i = 7 → found'.length ≠ 1 → refused .tablesIncomplete)) ∧
      ((∃ w ∈ s.mem.readEntry .loopCode i, w.judge = .uncorrectable) →
        ∃ t, exec .entryReadDone s = .next t ∧ t.part.fcu.mode = .safe ∧
          (s.part.fcu.mode ≠ .safe → t.part.fcu.stopCause = .tableFault ∧ Stopped s t) ∧
          TxFrame.answer f.tag .tablesIncomplete [] ∈ t.part.plp.tx ∧ t.part.plp.op = none)) ∧
    (∀ k, stage = .zones i k → tab = .zone →
      (usable → asks (.settings k) .settings 0) ∧
      (unusable → i < 23 → asks (.zones (i + 1) k) .zone (i + 1)) ∧
      (unusable → i = 23 → refused .tablesIncomplete)) ∧
    (∀ k, stage = .settings k → tab = .settings →
      let dock := settingOf (storedFields s .settings 0) 22
      (Sound s .settings 0 → dock < 24 → asks (.dockZone k) .zone dock) ∧
      (Sound s .settings 0 → 24 ≤ dock → refused .tablesIncomplete) ∧
      (s.part.tst.poisoned.get .settings 0 = true → refused .tablesIncomplete)) ∧
    (∀ k, stage = .dockZone k → tab = .zone →
      (unusable → refused .tablesIncomplete) ∧
      (usable → s.part.tst.mode ≠ .normal → refused .storeTest) ∧
      (usable → s.part.tst.mode = .normal → home = false → s.part.ltr.insideAt k = false →
        refused .notInside) ∧
      (usable → s.part.tst.mode = .normal → (home = false → s.part.ltr.insideAt k = true) →
        s.part.fcu.mode ≠ .idle → (home = false → s.part.fcu.mode ≠ .docked) → refused .wrongMode)))

/-! ### The segment queue -/

/-- A PLAN_APPEND is refused by the first check that fails, and leaves everything but the port as it is: the
mode WRONG_MODE, the count BAD_VALUE with position 255, the room QUEUE_FULL with the free places, and a segment
that fails without a table read BAD_VALUE with its position (R72, R73). A PLAN_APPEND whose segments need no
table read is placed at the tail, in carried order, and answered OK with the count and the free places, where
its event activates nothing (the mode is IDLE or DOCKED, or a segment is active already). One that needs a read
goes on as an operation (R72 to R74). A check read that completes passes for a valid own loop, and for a valid
zone that is not poisoned: the next check is made, with its own read (log 41), or, when none is left, the
segments are placed where the mode still takes an append, and refused WRONG_MODE where it does not; placed
behind an empty queue in RUN, a head that is no marker becomes active. A check that fails refuses the request
BAD_VALUE with its position, and places nothing; a loop code entry found uncorrectable also takes the part to
SAFE, and a zone entry found uncorrectable is poisoned (R14, R73, R74, R76). Where nothing completes in the
placement, the counts answered are those of the queue as placed (R72). -/
def Obligations.PlanAppendPlacesOrRefuses : Prop :=
  (∀ (tag : Byte) (segments : List SegmentBody) (s : State), PortReady s → segments.length ≤ 13 →
     (s.part.fcu.takesAppend = false →
       ∃ t, exec (.planAppend tag segments) s = .next t ∧
         OnlyAnswered s t 3 tag (planAppendBody segments) .wrongMode []) ∧
     (s.part.fcu.takesAppend = true → (segments.length = 0 ∨ 4 < segments.length) →
       ∃ t, exec (.planAppend tag segments) s = .next t ∧
         OnlyAnswered s t 3 tag (planAppendBody segments) .badValue [255]) ∧
     (s.part.fcu.takesAppend = true → 1 ≤ segments.length → segments.length ≤ 4 →
       32 - s.part.sq.queue.length < segments.length →
       ∃ t, exec (.planAppend tag segments) s = .next t ∧
         OnlyAnswered s t 3 tag (planAppendBody segments) .queueFull
           [byte (32 - s.part.sq.queue.length)]) ∧
     (s.part.fcu.takesAppend = true → 1 ≤ segments.length → segments.length ≤ 4 →
       segments.length ≤ 32 - s.part.sq.queue.length →
       ∀ position rest, appendChecks 0 segments = .fail position :: rest →
       ∃ t, exec (.planAppend tag segments) s = .next t ∧
         OnlyAnswered s t 3 tag (planAppendBody segments) .badValue [byte position])) ∧
  (∀ (tag : Byte) (segments : List SegmentBody) (s : State), PortReady s →
     s.part.fcu.takesAppend = true → 1 ≤ segments.length → segments.length ≤ 4 →
     segments.length ≤ 32 - s.part.sq.queue.length →
     (appendChecks 0 segments = [] → (s.part.fcu.planned = false ∨ s.part.sq.active = true) →
       ∃ t, exec (.planAppend tag segments) s = .next t ∧
         t.part.sq.queue = s.part.sq.queue ++ keyed s.part.serial (segments.map SegmentBody.record) ∧
         t.part.sq.active = s.part.sq.active ∧ t.part.sq.starvedArmed = true ∧
         Answered s t tag .ok
           [byte (s.part.sq.queue.length + segments.length),
            byte (32 - (s.part.sq.queue.length + segments.length))] ∧
         KeepRestarted s t ∧ StoreKept s t) ∧
     (∀ position k rest, appendChecks 0 segments = .loop position k :: rest →
       ∃ t, exec (.planAppend tag segments) s = .next t ∧
         InHand s t 3 tag (planAppendBody segments)
           (.append (segments.map SegmentBody.record) (.loop position k :: rest)) ∧
         AccessRequested t .planner (.entryRead .loopCode k) .plannerRead) ∧
     (∀ position z rest, appendChecks 0 segments = .zone position z :: rest →
       ∃ t, exec (.planAppend tag segments) s = .next t ∧
         InHand s t 3 tag (planAppendBody segments)
           (.append (segments.map SegmentBody.record) (.zone position z :: rest)) ∧
         AccessRequested t .planner (.entryRead .zone z) .plannerRead)) ∧
  (∀ (s : State) (segments : List Segment) (check : AppendCheck) (rest : List AppendCheck) (tab : Table)
    (i position : Nat) (f : RxFrame),
    ReadGranted s .planner tab i .plannerRead → s.part.plp.op = some (.append segments (check :: rest)) →
    s.part.plp.inHand = some f → (∀ q ∈ s.part.tst.waiting, q.owner ≠ .planner) → NoFrameWaits s →
    (check = .loop position i ∧ tab = .loopCode ∨ check = .zone position i ∧ tab = .zone) →
    segments ≠ [] → s.part.sq.queue.length + segments.length ≤ 32 →
    let kept := fun t : State =>
      t.part.fcu = s.part.fcu ∧ t.part.sq = s.part.sq ∧ t.part.rtu = s.part.rtu ∧ t.part.hre = s.part.hre ∧
      t.part.msh = s.part.msh ∧ t.part.ltr = s.part.ltr ∧ t.part.dbm = s.part.dbm ∧ t.mem = s.mem ∧
      t.pending = s.pending
    let refused := fun (code : AnswerCode) (data : List Byte) =>
      ∃ t, exec .entryReadDone s = .next t ∧ kept t ∧ TxFrame.answer f.tag code data ∈ t.part.plp.tx ∧
        t.part.plp.op = none
    let asks := fun (tab' : Table) (i' : Nat) =>
      ∃ t, exec .entryReadDone s = .next t ∧ kept t ∧ t.part.plp.inHand = some f ∧
        t.part.plp.op = some (.append segments rest) ∧
        AccessRequested t .planner (.entryRead tab' i') .plannerRead
    let loop := loopEntryOf (storedFields s .loopCode i)
    let zone := zoneEntryOf (storedFields s .zone i)
    let passes := Sound s tab i ∧
      (tab = .loopCode → loop.valid = true ∧ loop.role ≠ .foreign) ∧ (tab = .zone → zone.valid = true)
    let fails := s.part.tst.poisoned.get tab i = true ∨
      Sound s tab i ∧ (tab = .loopCode → loop.valid = false ∨ loop.role = .foreign) ∧
        (tab = .zone → zone.valid = false)
    let bad := s.part.tst.poisoned.get tab i = false ∧
      ∃ w ∈ s.mem.readEntry tab i, w.judge = .uncorrectable
    let queue := s.part.sq.queue ++ keyed s.part.serial segments
    let placed := fun t : State => exec .entryReadDone s = .next t ∧ t.part.sq.queue = queue ∧
      t.part.sq.starvedArmed = true ∧
      t.part.sq.refillArmed = (s.part.sq.refillArmed || decide (s.part.sq.refillMark < queue.length)) ∧
      TxFrame.answer f.tag .ok [byte queue.length, byte (32 - queue.length)] ∈ t.part.plp.tx ∧
      t.part.plp.op = none ∧ t.part.fcu.mode = s.part.fcu.mode ∧ t.mem = s.mem ∧ t.pending = s.pending
    (fails → refused .badValue [byte position]) ∧
    (bad → ∃ t, exec .entryReadDone s = .next t ∧
      TxFrame.answer f.tag .badValue [byte position] ∈ t.part.plp.tx ∧ t.part.plp.op = none ∧
      (tab = .loopCode → t.part.fcu.mode = .safe ∧
        (s.part.fcu.mode ≠ .safe → t.part.fcu.stopCause = .tableFault ∧ Stopped s t)) ∧
      (tab = .zone → t.part.tst.poisoned.get .zone i = true ∧ t.part.fcu.mode = s.part.fcu.mode ∧
        t.part.sq = s.part.sq)) ∧
    (passes →
      (∀ p more, rest = .fail p :: more → refused .badValue [byte p]) ∧
      (∀ p k more, rest = .loop p k :: more → asks .loopCode k) ∧
      (∀ p z more, rest = .zone p z :: more → asks .zone z) ∧
      (rest = [] → s.part.fcu.takesAppend = false → refused .wrongMode []) ∧
      (rest = [] → s.part.fcu.takesAppend = true →
        s.part.fcu.planned = false ∨ s.part.sq.active = true →
        ∃ t, placed t ∧ t.part.sq.active = s.part.sq.active) ∧
      (∀ g more, rest = [] → s.part.fcu.planned = true → s.part.sq.active = false → s.part.sq.queue = [] →
        segments = g :: more → (g.length ≠ 0 ∨ g.endCondition ≠ none) →
        ∃ t, placed t ∧ t.part.sq.active = true ∧ t.part.msh.progress = 0)))

/-- A PLAN_FLUSH empties the queue in every mode and is answered OK with the number of records it ended; the
mode stays as it is (R82, R84). While a response waits in the pending slot, the end of a held-through segment
may let it become active in the same event (R147); that case is left to R147. -/
def Obligations.PlanFlushEmptiesTheQueue : Prop :=
  ∀ (tag : Byte) (s : State), PortReady s → s.part.hre.pending = none →
    ∃ t, exec (.planFlush tag) s = .next t ∧ t.part.sq.queue = [] ∧
      TxFrame.answer tag .ok [byte s.part.sq.queue.length] ∈ t.part.plp.tx ∧
      t.part.fcu.mode = s.part.fcu.mode ∧ t.part.fcu.resume = s.part.fcu.resume ∧
      t.part.fcu.stopCause = s.part.fcu.stopCause ∧ t.part.hre = s.part.hre ∧
      t.part.rtu = s.part.rtu ∧ t.part.scr = s.part.scr ∧ t.part.ltr = s.part.ltr ∧
      t.part.sin = s.part.sin ∧ StoreKept s t ∧ t.pending = s.pending

/-! ### The table store's requests -/

/-- A TABLE_WRITE is refused by the first check that fails and changes nothing: the mask BAD_VALUE, the index
BAD_INDEX, for the settings the silent action BAD_VALUE, for a protected table a moving mode WRONG_MODE, and a
field out of range BAD_VALUE (R27, R57, R60, R141, R162, R178, R195). A TABLE_WRITE that passes its checks goes
to the store as one access with the carried values, clamped: a full-entry write where its mask names every
position, else a partial write. One whose checks need a loop's entry asks for that read first (R177, R178,
R195). An ordering of two fields that fails (zone slopes, a passage's zones, the settings' slope pair) refuses a
full-entry write before the access (log 26). A check read that completes passes for a loop that is valid with
role GUIDE or PERIMETER, or ISLAND where the pattern of a zone names it: the next check is made, the loops in
index order (log 43), or, when none is left, the write goes to the store. One that fails refuses the write
BAD_VALUE and writes nothing; an entry found uncorrectable also takes the part to SAFE (R14, R57, R60, R162). -/
def Obligations.TableWriteIsCheckedAndAsked : Prop :=
  (∀ (tab : Table) (tag index : Byte) (mask : BitVec 64) (block : List Byte) (s : State), PortReady s →
     block.length = blockLength tab →
     let write := tableWriteCommand tab tag index mask block
     let body := tableWriteBody tab index mask block
     (maskOk tab mask = false → ∃ t, exec write s = .next t ∧ OnlyAnswered s t 5 tag body .badValue []) ∧
     (maskOk tab mask = true → tab.entries ≤ index.toNat →
       ∃ t, exec write s = .next t ∧ OnlyAnswered s t 5 tag body .badIndex []) ∧
     (maskOk tab mask = true → index.toNat < tab.entries → tab = .settings →
       namedInRange tab mask (carriedValues tab block) 1 = false →
       ∃ t, exec write s = .next t ∧ OnlyAnswered s t 5 tag body .badValue []) ∧
     (maskOk tab mask = true → index.toNat < tab.entries → tab.isProtected = true →
       s.part.fcu.mode.moving = true →
       ∃ t, exec write s = .next t ∧ OnlyAnswered s t 5 tag body .wrongMode []) ∧
     (WriteAdmitted s tab index mask block → ∀ rest, writeChecks tab mask block = .fail :: rest →
       ∃ t, exec write s = .next t ∧ OnlyAnswered s t 5 tag body .badValue [])) ∧
  (∀ (tab : Table) (tag index : Byte) (mask : BitVec 64) (block : List Byte) (s : State), PortReady s →
     block.length = blockLength tab → WriteAdmitted s tab index mask block →
     (writeChecks tab mask block = [] →
       ∃ t, exec (tableWriteCommand tab tag index mask block) s = .next t ∧
         InHand s t 5 tag (tableWriteBody tab index mask block) (.writing tab index.toNat) ∧
         AccessRequested t .planner
           (if mask.toNat = 2 ^ tab.positions - 1 then
             .fullWrite tab index.toNat (clampedValues tab block)
            else .partialWrite tab index.toNat mask (clampedValues tab block)) .plannerWrite) ∧
     (∀ k island rest, writeChecks tab mask block = .loop k island :: rest →
       ∃ t, exec (tableWriteCommand tab tag index mask block) s = .next t ∧
         InHand s t 5 tag (tableWriteBody tab index mask block)
           (.tableWrite tab index.toNat mask (clampedValues tab block) (.loop k island :: rest)) ∧
         AccessRequested t .planner (.entryRead .loopCode k) .plannerWrite)) ∧
  (∀ (s : State) (tab : Table) (i k : Nat) (mask : BitVec 64) (fields : List Int) (island : Bool)
    (rest : List WriteCheck) (f : RxFrame),
    ReadGranted s .planner .loopCode k .plannerWrite →
    s.part.plp.op = some (.tableWrite tab i mask fields (.loop k island :: rest)) →
    s.part.plp.inHand = some f → (∀ q ∈ s.part.tst.waiting, q.owner ≠ .planner) → NoFrameWaits s →
    (tab.isProtected = true → s.part.fcu.mode.permitsProtected = true) →
    let kept := fun t : State =>
      t.part.fcu = s.part.fcu ∧ t.part.sq = s.part.sq ∧ t.part.rtu = s.part.rtu ∧ t.part.hre = s.part.hre ∧
      t.part.msh = s.part.msh ∧ t.part.ltr = s.part.ltr ∧ t.part.dbm = s.part.dbm ∧ t.mem = s.mem ∧
      t.pending = s.pending
    let refused := ∃ t, exec .entryReadDone s = .next t ∧ kept t ∧
      TxFrame.answer f.tag .badValue [] ∈ t.part.plp.tx ∧ t.part.plp.op = none
    let asks := fun (op : PlannerOp) (kind : AccessKind) =>
      ∃ t, exec .entryReadDone s = .next t ∧ kept t ∧ t.part.plp.inHand = some f ∧
        t.part.plp.op = some op ∧ AccessRequested t .planner kind .plannerWrite
    let e := loopEntryOf (storedFields s .loopCode k)
    let mayBeNamed := e.valid = true ∧
      (e.role = .guide ∨ e.role = .perimeter ∨ e.role = .island ∧ island = true)
    (Sound s .loopCode k → ¬ mayBeNamed → refused) ∧
    ((∃ w ∈ s.mem.readEntry .loopCode k, w.judge = .uncorrectable) →
      ∃ t, exec .entryReadDone s = .next t ∧ t.part.fcu.mode = .safe ∧ t.mem = s.mem ∧
        (s.part.fcu.mode ≠ .safe → t.part.fcu.stopCause = .tableFault ∧ Stopped s t) ∧
        TxFrame.answer f.tag .badValue [] ∈ t.part.plp.tx ∧ t.part.plp.op = none) ∧
    (Sound s .loopCode k → mayBeNamed →
      (∀ more, rest = .fail :: more → refused) ∧
      (∀ k' island' more, rest = .loop k' island' :: more →
        asks (.tableWrite tab i mask fields rest) (.entryRead .loopCode k')) ∧
      (rest = [] →
        asks (.writing tab i)
          (if mask.toNat = 2 ^ tab.positions - 1 then .fullWrite tab i fields
           else .partialWrite tab i mask fields))))

/-- A TABLE_READ of a table that does not exist is refused BAD_VALUE, of an entry that does not exist BAD_INDEX;
any other asks the store for the entry (R193, R194). -/
def Obligations.TableReadAsksForTheEntry : Prop :=
  ∀ (tag code index : Byte) (s : State), PortReady s →
    (4 < code.toNat →
      ∃ t, exec (.tableRead tag code index) s = .next t ∧
        OnlyAnswered s t 6 tag [code, index] .badValue []) ∧
    (∀ tab, Table.ofCode code = some tab → tab.entries ≤ index.toNat →
      ∃ t, exec (.tableRead tag code index) s = .next t ∧
        OnlyAnswered s t 6 tag [code, index] .badIndex []) ∧
    (∀ tab, Table.ofCode code = some tab → index.toNat < tab.entries →
      ∃ t, exec (.tableRead tag code index) s = .next t ∧
        InHand s t 6 tag [code, index] (.tableRead tab index.toNat) ∧
        AccessRequested t .planner (.entryRead tab index.toNat) .plannerRead)

/-! ### The sense link -/

/-- A sense frame that fails the frame check is discarded and changes nothing: a wrong check value, node or body
length, or a field outside its range (R22, R133). A bumper frame taken replaces the latest values, restarts the
freshness timer, clears the stale mark, and requests a walk for each bumper that was not pressed before; a press
that lasts, or none, requests none. An attitude frame, a range frame and an environment frame taken replace
their latest values and request the walks of their values in every frame, an absent echo as 401; LIFT is
requested on its edge, and not while a lift lasts or is absent (R134 to R136). -/
def Obligations.SenseFramesAreTakenOrDiscarded : Prop :=
  (∀ (s : State) (h : SenseHead), Quiet s →
     let passes := fun node => h.checkOk = true ∧ h.node = node ∧ h.lengthOk = true
     (∀ n l r, ¬ passes 0 → exec (.coilFrame h n l r) s = .next s) ∧
     (∀ l c r, ¬ passes 1 → exec (.bumperFrame h l c r) s = .next s) ∧
     (∀ p r l, ¬ passes 2 → exec (.attitudeFrame h p r l) s = .next s) ∧
     (∀ l r, ¬ passes 3 → exec (.rangeFrame h l r) s = .next s) ∧
     (∀ r b c, ¬ passes 4 → exec (.environmentFrame h r b c) s = .next s) ∧
     (∀ l c r, l = .invalid ∨ c = .invalid ∨ r = .invalid → exec (.bumperFrame h l c r) s = .next s) ∧
     (∀ p r l, 900 < p.natAbs ∨ 900 < r.natAbs ∨ l = .invalid →
       exec (.attitudeFrame h p r l) s = .next s) ∧
     (∀ l r, 400 < l ∨ 400 < r → exec (.rangeFrame h l r) s = .next s) ∧
     (∀ r b c, 100 < r ∨ 32767 < b ∨ 32767 < c → exec (.environmentFrame h r b c) s = .next s)) ∧
  (∀ (s : State) (l c r : Bool), NoFrameWaits s →
     let bit := fun b : Bool => if b then SenseBit.yes else SenseBit.no
     ∃ t, exec (.bumperFrame ⟨true, 1, true⟩ (bit l) (bit c) (bit r)) s = .next t ∧
       t.part.sin =
         { s.part.sin with
           bumper := some ⟨l, c, r, s.part.clock⟩
           timers := { s.part.sin.timers with s1 := some s.part.sin.limits.s1 }
           stale := { s.part.sin.stale with s1 := false } } ∧
       (l = true → s.part.sin.bumper.map (·.left) ≠ some true → WalkRequested t .bumpL 1 1) ∧
       (c = true → s.part.sin.bumper.map (·.centre) ≠ some true → WalkRequested t .bumpC 1 1) ∧
       (r = true → s.part.sin.bumper.map (·.right) ≠ some true → WalkRequested t .bumpR 1 1) ∧
       (l = false ∨ s.part.sin.bumper.map (·.left) = some true →
         ∀ v, WalkRequested t .bumpL 1 v → WalkRequested s .bumpL 1 v) ∧
       (c = false ∨ s.part.sin.bumper.map (·.centre) = some true →
         ∀ v, WalkRequested t .bumpC 1 v → WalkRequested s .bumpC 1 v) ∧
       (r = false ∨ s.part.sin.bumper.map (·.right) = some true →
         ∀ v, WalkRequested t .bumpR 1 v → WalkRequested s .bumpR 1 v) ∧
       t.mem = s.mem ∧ t.pending = s.pending ∧ t.part.scr = s.part.scr ∧ t.part.ltr = s.part.ltr ∧
       t.part.clock = s.part.clock) ∧
  (∀ (s : State), NoFrameWaits s →
     (∀ (pitch roll : Int) (lift : Bool), pitch.natAbs ≤ 900 → roll.natAbs ≤ 900 →
       ∃ t, exec (.attitudeFrame ⟨true, 2, true⟩ pitch roll (if lift then .yes else .no)) s = .next t ∧
         t.part.sin =
           { s.part.sin with
             attitude := some ⟨pitch, roll, lift, s.part.clock⟩
             timers := { s.part.sin.timers with s2 := some s.part.sin.limits.s2 }
             stale := { s.part.sin.stale with s2 := false } } ∧
         WalkRequested t .pitch 2 pitch ∧ WalkRequested t .roll 2 roll ∧
         (lift = true → s.part.sin.attitude.map (·.lift) ≠ some true → WalkRequested t .lift 2 1) ∧
         (lift = false ∨ s.part.sin.attitude.map (·.lift) = some true →
           ∀ v, WalkRequested t .lift 2 v → WalkRequested s .lift 2 v) ∧
         t.mem = s.mem ∧ t.pending = s.pending ∧ t.part.scr = s.part.scr ∧ t.part.ltr = s.part.ltr) ∧
     (∀ (left right : Nat), left ≤ 400 → right ≤ 400 →
       ∃ t, exec (.rangeFrame ⟨true, 3, true⟩ left right) s = .next t ∧
         t.part.sin =
           { s.part.sin with
             range := some ⟨left, right, s.part.clock⟩
             timers := { s.part.sin.timers with s3 := some s.part.sin.limits.s3 }
             stale := { s.part.sin.stale with s3 := false } } ∧
         WalkRequested t .rangeL 3 (if left = 0 then 401 else left) ∧
         WalkRequested t .rangeR 3 (if right = 0 then 401 else right) ∧
         t.mem = s.mem ∧ t.pending = s.pending ∧ t.part.scr = s.part.scr ∧ t.part.ltr = s.part.ltr) ∧
     (∀ (rain battery contact : Nat), rain ≤ 100 → battery ≤ 32767 → contact ≤ 32767 →
       ∃ t, exec (.environmentFrame ⟨true, 4, true⟩ rain battery contact) s = .next t ∧
         t.part.sin =
           { s.part.sin with
             environment := some ⟨rain, battery, contact, s.part.clock⟩
             timers := { s.part.sin.timers with s4 := some s.part.sin.limits.s4 }
             stale := { s.part.sin.stale with s4 := false } } ∧
         WalkRequested t .rain 4 rain ∧ WalkRequested t .battery 4 battery ∧
         t.mem = s.mem ∧ t.pending = s.pending ∧ t.part.scr = s.part.scr ∧ t.part.ltr = s.part.ltr))

/-- Contact at the dock. In APPROACH a frame at or above the threshold begins final approach with settle count
1, or raises the count; the frame that brings the count to the settle count confirms contact: the mode becomes
DOCKED, the stack with its flag, the crossing list and the counts are cleared, the stop cause is kept, and the
part has stopped. A frame below the threshold fails the attempt in final approach, with cause 1: the attempt
count rises, a BACKOFF begins, and a DOCK_ATTEMPT entry is added; before final approach it changes nothing. In
DOCKED a frame below the threshold raises the count and one at or above it clears it; the frame that brings it
to the settle count loses contact: the mode becomes IDLE, with a CONTACT_LOST entry before the MODE_CHANGED
entry, the stop cause is kept, and the part has stopped. A PAUSE that ends in DOCKING starts a new approach, or,
where the attempts are exhausted, halts the part with DOCK_FAILED (R12, R169 to R172). The end of a backoff
stands in PeriodExpiryCreditsItsSource. -/
def Obligations.ContactDecidesTheDock : Prop :=
  (∀ (s : State) (rain battery contact : Nat), NoFrameWaits s → rain ≤ 100 → battery ≤ 32767 →
    contact ≤ 32767 → s.part.fcu.mode = .docking → s.part.rtu.activity = .approach →
    let frame := Instr.environmentFrame ⟨true, 4, true⟩ rain battery contact
    let settle := if s.part.rtu.finalApproach = true then min 15 (s.part.rtu.settle + 1) else 1
    (s.part.rtu.params.threshold ≤ contact → s.part.rtu.params.settle ≤ settle →
      ∃ t, exec frame s = .next t ∧
        t.part.fcu.mode = .docked ∧ t.part.fcu.stopCause = s.part.fcu.stopCause ∧
        t.part.rtu.stack = [] ∧ t.part.rtu.overflow = false ∧ t.part.rtu.crossings = [] ∧
        t.part.rtu.attempts = 0 ∧ t.part.rtu.settle = 0 ∧ t.part.rtu.activity = .none ∧
        t.part.rtu.finalApproach = false ∧ NoResponse t ∧ Stopped s t) ∧
    (s.part.rtu.params.threshold ≤ contact → settle < s.part.rtu.params.settle →
      ∃ t, exec frame s = .next t ∧ t.part.fcu.mode = .docking ∧
        t.part.rtu = { s.part.rtu with finalApproach := true, settle := settle }) ∧
    (contact < s.part.rtu.params.threshold → s.part.rtu.finalApproach = true → s.part.hre.pending = none →
      ∃ t key, exec frame s = .next t ∧ t.part.fcu.mode = .docking ∧
        t.part.rtu = { s.part.rtu with
          finalApproach := false, settle := 0, attempts := s.part.rtu.attempts + 1, activity := .backoff
          distance := 0, dockKey := key } ∧
        EntriesAdded s t [(.dockAttempt, s.part.rtu.attempts + 1, 1)]) ∧
    (contact < s.part.rtu.params.threshold → s.part.rtu.finalApproach = false →
      ∃ t, exec frame s = .next t ∧ t.part.fcu.mode = .docking ∧ t.part.rtu = s.part.rtu)) ∧
  (∀ (s : State) (rain battery contact : Nat), NoFrameWaits s → rain ≤ 100 → battery ≤ 32767 →
    contact ≤ 32767 → s.part.fcu.mode = .docked →
    let frame := Instr.environmentFrame ⟨true, 4, true⟩ rain battery contact
    let settle := min 15 (s.part.rtu.settle + 1)
    (s.part.rtu.params.threshold ≤ contact →
      ∃ t, exec frame s = .next t ∧ t.part.fcu.mode = .docked ∧
        t.part.rtu = { s.part.rtu with settle := 0 }) ∧
    (contact < s.part.rtu.params.threshold → settle < s.part.rtu.params.settle →
      ∃ t, exec frame s = .next t ∧ t.part.fcu.mode = .docked ∧
        t.part.rtu = { s.part.rtu with settle := settle }) ∧
    (contact < s.part.rtu.params.threshold → s.part.rtu.params.settle ≤ settle → NoResponse s →
      ∃ t, exec frame s = .next t ∧ t.part.fcu.mode = .idle ∧
        t.part.fcu.stopCause = s.part.fcu.stopCause ∧ t.part.rtu.settle = 0 ∧
        t.part.rtu.stack = s.part.rtu.stack ∧ t.part.sq.queue = s.part.sq.queue ∧ NoResponse t ∧
        Stopped s t ∧
        EntriesAdded s t
          [(.contactLost, 0, contact),
           (.modeChanged, 0, s.part.fcu.stopCause.code + 256 * s.part.fcu.stopCause.rule)])) ∧
  (∀ (s : State) (a : Active), NoFrameWaits s → s.part.hre.active = some a → a.response.action = .pause →
    a.timer ≠ none → s.part.hre.pending = none → s.part.fcu.mode = .maneuver →
    s.part.fcu.resume = some .docking →
    (s.part.rtu.attempts < s.part.rtu.params.retries →
      ∃ t key, exec .responseHoldExpiry s = .next t ∧ t.part.fcu.mode = .docking ∧ NoResponse t ∧
        t.part.rtu = { s.part.rtu with
          params := s.part.rtu.copies, activity := .approach, distance := 0, finalApproach := false
          settle := 0, dockKey := key }) ∧
    (s.part.rtu.params.retries ≤ s.part.rtu.attempts →
      ∃ t, exec .responseHoldExpiry s = .next t ∧ t.part.fcu.mode = .halted ∧
        t.part.fcu.stopCause = .dockFailed ∧ t.part.rtu.activity = .none ∧ NoResponse t ∧ Stopped s t))

/-- A coil frame that passes the check reaches the correlator: with no frame in processing its processing begins
and the first loop code entry is asked for; else it takes the waiting place. The freshness timer restarts (R22
to R24, R29). -/
def Obligations.CoilFrameReachesTheCorrelator : Prop :=
  ∀ (s : State) (number : Byte) (left right : List (BitVec 12)), NoFrameWaits s →
    ∃ t, exec (.coilFrame ⟨true, 0, true⟩ number left right) s = .next t ∧
      t.part.sin =
        { s.part.sin with
          timers := { s.part.sin.timers with s0 := some s.part.sin.limits.s0 }
          stale := { s.part.sin.stale with s0 := false } } ∧
      (s.part.scr.processing = none →
        t.part.scr =
          { s.part.scr with processing := some ⟨⟨number, left, right⟩, []⟩, lastFrame := some number } ∧
        AccessRequested t .correlator (.entryRead .loopCode 0) .correlator) ∧
      (s.part.scr.processing ≠ none →
        t.part.scr = { s.part.scr with waiting := some ⟨number, left, right⟩ }) ∧
      t.part.ltr = s.part.ltr ∧ t.mem = s.mem ∧ t.pending = s.pending

/-- The expiry of a running freshness timer stops it, sets the node's stale mark and requests a SENSOR_STALE
walk. For the coil node every tracked loop that is not lost is lost; for the others the tracks stay (R50, R136). -/
def Obligations.SilentSenseNodeBecomesStale : Prop :=
  ∀ (s : State) (n : Fin 5), NoFrameWaits s → s.part.sin.timers.get n ≠ none →
    ∃ t, exec (.sensorStale n) s = .next t ∧
      t.part.sin =
        { s.part.sin with
          timers := s.part.sin.timers.set n none
          stale := s.part.sin.stale.set n true } ∧
      WalkRequested t .sensorStale n.val n.val ∧
      (n ≠ 0 → t.part.ltr.tracks = s.part.ltr.tracks) ∧
      (n = 0 → ∀ i : Fin 8, (s.part.ltr.tracks.get i).tracked = true →
        (s.part.ltr.tracks.get i).lost = false →
        (t.part.ltr.tracks.get i).lost = true ∧ (t.part.ltr.tracks.get i).combined = .lost ∧
        (t.part.ltr.tracks.get i).left.side = none ∧ (t.part.ltr.tracks.get i).right.side = none) ∧
      t.part.scr = s.part.scr ∧ t.mem = s.mem ∧ t.pending = s.pending

/-! ### Timers -/

/-- The keep timer expires: it stops and the keep status is SILENT. With silent action HALT a moving part enters
SAFE, stop cause LINK_SILENT, with its queue flushed; in the other modes only the status changes. With silent
action HOME a part in RUN, or in MANEUVER with resume mode RUN, goes HOMING, its queue flushed, a maneuver ended
and a SLOW or STOP_BLADE left active, and a leg is planned from the zone it is in, or was last known in; without
one homing fails at once. In HOMING and DOCKING, and in MANEUVER with those resume modes, only the status
changes (R11, R12, R14, R20, R149, R163). -/
def Obligations.LinkSilenceActs : Prop :=
  ∀ s : State, s.part.fcu.keepTimer ≠ none →
    ∃ t, exec .keepTimerExpiry s = .next t ∧ t.part.fcu.keepTimer = none ∧
      t.part.fcu.keepSilent = true ∧
      (s.part.fcu.mode.moving = false →
        t.part.fcu.mode = s.part.fcu.mode ∧ t.part.fcu.stopCause = s.part.fcu.stopCause ∧
        t.part.sq = s.part.sq ∧ t.part.rtu = s.part.rtu ∧ t.part.hre = s.part.hre ∧
        t.part.dbm = s.part.dbm) ∧
      (s.part.fcu.silentAction = .halt → s.part.fcu.mode.moving = true → NoFrameWaits s →
        t.part.fcu.mode = .safe ∧ t.part.fcu.stopCause = .linkSilent ∧ t.part.fcu.resume = none ∧
        t.part.sq.queue = [] ∧ NoResponse t ∧ Stopped s t) ∧
      (∀ z, s.part.fcu.silentAction = .home → s.part.fcu.mode = .run → s.part.hre.active = none →
        s.part.ltr.startZone = some z → s.part.rtu.crossings = [] → s.part.rtu.applying = none →
        s.part.rtu.planning = none → NoFrameWaits s →
        t.part.fcu.mode = .homing ∧ t.part.fcu.stopCause = s.part.fcu.stopCause ∧
        t.part.sq.queue = [] ∧ t.part.rtu.planning = some ⟨z, .settings⟩ ∧
        AccessRequested t .planning (.entryRead .settings 0) .returning) ∧
      (s.part.fcu.silentAction = .home →
        s.part.fcu.mode = .run ∨ s.part.fcu.mode = .maneuver ∧ s.part.fcu.resume = some .run →
        s.part.hre.pending = none → NoFrameWaits s →
        t.part.fcu.resume = none ∧ t.part.sq.queue = [] ∧ t.part.fcu.permission = false ∧
        t.part.hre.pending = none ∧
        (s.part.ltr.startZone = none → s.part.rtu.crossings = [] → s.part.rtu.applying = none →
          s.part.rtu.planning = none →
          t.part.fcu.mode = .halted ∧ t.part.fcu.stopCause = .homeFailed ∧ NoResponse t ∧ Stopped s t) ∧
        (s.part.ltr.startZone ≠ none →
          t.part.fcu.mode = .homing ∧ t.part.fcu.stopCause = s.part.fcu.stopCause) ∧
        (∀ a, s.part.ltr.startZone ≠ none → s.part.hre.active = some a →
          (a.response.action = .pause ∨ a.response.action = .backTurn →
            t.part.hre.active = none ∧ t.part.fcu.hazardLevel = 0) ∧
          (a.response.action = .slow ∨ a.response.action = .stopBlade →
            t.part.hre.active = some a ∧ t.part.fcu.hazardLevel = s.part.fcu.hazardLevel)) ∧
        (∀ z, s.part.ltr.startZone = some z → s.part.rtu.crossings = [] → s.part.rtu.applying = none →
          s.part.rtu.planning = none → t.part.rtu.planning = some ⟨z, .settings⟩ ∧
          AccessRequested t .planning (.entryRead .settings 0) .returning)) ∧
      (s.part.fcu.silentAction = .home →
        s.part.fcu.mode = .homing ∨ s.part.fcu.mode = .docking ∨
          s.part.fcu.mode = .maneuver ∧ (s.part.fcu.resume = some .homing ∨ s.part.fcu.resume = some .docking) →
        t.part.fcu = { s.part.fcu with keepTimer := none, keepSilent := true } ∧ t.part.sq = s.part.sq ∧
        t.part.rtu = s.part.rtu ∧ t.part.hre = s.part.hre ∧ t.part.dbm = s.part.dbm ∧
        t.part.msh = s.part.msh)

/-- Every period expiry restarts the period timer with 20 ms, takes both distance accumulators and sets them to
0, and adds their sum to the odometer, halved, with the remainder in the carry (R90, R106). The same sum is
credited to the source of motion as it stands, halved by the source's kind with the progress carry, which starts
at 0 for a source that was not the one credited before; a PAUSE response and a standstill are credited nothing
(R107). The active segment's progress rises by the step, a PAUSE's by 20; one that reaches its length ends
COMPLETED with its SEG_DONE entry, the next head becomes active with progress 0, and the REFILL and STARVED
tests are made on the queue that is left (R76, R78, R79, R85, R86, R108). A leg in a known zone other than its
start zone ends, and the next is planned; else its distance rises, and in ACQUIRE, beyond the search distance,
homing fails (R163, R165, R166). A dock approach that reaches its limit fails its attempt with cause 0, and a
backoff that reaches its length starts a new approach, or, with the attempts exhausted, halts the part with
DOCK_FAILED (R168, R170). The credit of a BACK_TURN stands in ResponsesEndOnTheirCompletion. That a segment of
speed 0 and a length above 0 is credited nothing, and keeps the carry, is log 46. -/
def Obligations.PeriodExpiryCreditsItsSource : Prop :=
  (∀ s : State,
    ∃ t, exec .shaperPeriod s = .next t ∧ t.part.msh.periodTimer = some 20 ∧
      (let n := (s.part.msh.wheels.left.distance + s.part.msh.wheels.right.distance).natAbs +
        s.part.msh.odometerCarry
       t.part.msh.odometer = s.part.msh.odometer + BitVec.ofNat 32 (n / 2) ∧
       t.part.msh.odometerCarry = n % 2) ∧
      t.part.msh.wheels =
        ⟨{ s.part.msh.wheels.left with distance := 0 }, { s.part.msh.wheels.right with distance := 0 }⟩ ∧
      t.part.msh.credited = s.part.motionSource ∧
      t.part.scr = s.part.scr ∧ t.part.ltr = s.part.ltr ∧ t.part.sin = s.part.sin ∧ t.mem = s.mem ∧
      t.pending = s.pending) ∧
  (∀ s : State, NoFrameWaits s →
    (s.part.motionSource = none ∨ ∃ a, s.part.hre.active = some a ∧ a.response.action = .pause) →
    ∃ t, exec .shaperPeriod s = .next t ∧ t.part.msh.progress = s.part.msh.progress ∧
      t.part.sq = s.part.sq ∧ t.part.rtu = s.part.rtu ∧ t.part.hre = s.part.hre ∧
      (s.part.motionSource = none → t.part.msh.progressCarry = 0)) ∧
  (∀ s : State, NoFrameWaits s → s.part.hre.pending = none →
    (∀ a, s.part.hre.active = some a → a.response.action ≠ .pause ∧ a.response.action ≠ .backTurn) →
    let dL := s.part.msh.wheels.left.distance
    let dR := s.part.msh.wheels.right.distance
    let carry := fun source : SourceId =>
      if s.part.msh.credited = some source then s.part.msh.progressCarry else 0
    let along := fun source : SourceId => (dL + dR).natAbs + carry source
    let halts := fun cause : StopCause =>
      ∃ t, exec .shaperPeriod s = .next t ∧ t.part.fcu.mode = .halted ∧ t.part.fcu.stopCause = cause ∧
        t.part.rtu.leg = none ∧ t.part.rtu.activity = .none ∧ t.part.sq.queue = [] ∧ NoResponse t ∧
        Stopped s t
    (∀ g rest, s.part.fcu.mode = .run → s.part.sq.active = true → s.part.sq.queue = g :: rest →
      let source := SourceId.segment g.key
      let still := g.speed = 0 ∧ g.length ≠ 0
      let rolled := match g.shape with
        | .spin _ => dL.natAbs + dR.natAbs + carry source
        | .straight | .arc .. | .follow .. | .pause => along source
      let credit : Nat × Nat := match g.shape with
        | .pause => (20, carry source)
        | .straight | .arc .. | .follow .. | .spin _ =>
          if still then (0, carry source) else (rolled / 2, rolled % 2)
      let progress := min 4294967295 (s.part.msh.progress + credit.1)
      (g.length = 0 ∨ progress < g.length →
        ∃ t, exec .shaperPeriod s = .next t ∧ t.part.msh.progress = progress ∧
          t.part.msh.progressCarry = credit.2 ∧ t.part.sq = s.part.sq ∧ t.part.fcu.mode = .run ∧
          EntriesAdded s t []) ∧
      (0 < g.length → g.length ≤ progress →
        (∀ h more, rest = h :: more → h.length ≠ 0 ∨ h.endCondition ≠ none) →
        let refill := s.part.sq.refillArmed = true ∧ rest.length ≤ s.part.sq.refillMark
        let starved := s.part.sq.starvedArmed = true ∧ rest = []
        ∃ t, exec .shaperPeriod s = .next t ∧ t.part.sq.queue = rest ∧
          t.part.sq.active = !rest.isEmpty ∧ (rest ≠ [] → t.part.msh.progress = 0) ∧
          t.part.msh.progressCarry = credit.2 ∧ t.part.fcu.mode = .run ∧
          t.part.sq.refillArmed = (s.part.sq.refillArmed && decide (s.part.sq.refillMark < rest.length)) ∧
          t.part.sq.starvedArmed = (s.part.sq.starvedArmed && !rest.isEmpty) ∧
          EntriesAdded s t
            ([(.segDone, g.id.toNat, min 65535 progress)] ++
              (if refill then [(.refill, rest.length, 32 - rest.length)] else []) ++
              (if starved then [(.starved, 0, 0)] else [])))) ∧
    (∀ l, s.part.fcu.mode = .homing → s.part.rtu.leg = some l →
      let rolled := along (.leg l.key l.follow)
      let distance := min 65535 (l.distance + rolled / 2)
      let left := ∃ z, s.part.ltr.zone = some z ∧ z ≠ l.start
      let held := s.part.rtu.crossings ≠ [] ∨ s.part.rtu.applying ≠ none ∨ s.part.rtu.planning ≠ none
      (left →
        ∃ t, exec .shaperPeriod s = .next t ∧ t.part.rtu.leg = none ∧ t.part.fcu.mode = .homing ∧
          t.part.msh.progressCarry = rolled % 2 ∧ (held → t.part.rtu.planDue = true) ∧
          (¬ held → ∀ z, s.part.ltr.zone = some z →
            t.part.rtu.planning = some ⟨z, .settings⟩ ∧
            AccessRequested t .planning (.entryRead .settings 0) .returning)) ∧
      (¬ left → l.follow = true ∨ distance ≤ l.search →
        ∃ t, exec .shaperPeriod s = .next t ∧ t.part.fcu.mode = .homing ∧
          t.part.rtu = { s.part.rtu with leg := some { l with distance := distance } } ∧
          t.part.msh.progressCarry = rolled % 2) ∧
      (¬ left → l.follow = false → l.search < distance → halts .homeFailed)) ∧
    (s.part.fcu.mode = .docking →
      let rolled := along (.dock s.part.rtu.dockKey)
      let distance := min 65535 (s.part.rtu.distance + rolled / 2)
      let goesOn := ∃ t, exec .shaperPeriod s = .next t ∧ t.part.fcu.mode = .docking ∧
        t.part.rtu = { s.part.rtu with distance := distance } ∧ t.part.msh.progressCarry = rolled % 2
      (s.part.rtu.activity = .approach →
        (distance < s.part.rtu.params.approachLimit → goesOn) ∧
        (s.part.rtu.params.approachLimit ≤ distance →
          ∃ t key, exec .shaperPeriod s = .next t ∧ t.part.fcu.mode = .docking ∧
            t.part.rtu = { s.part.rtu with
              finalApproach := false, settle := 0, attempts := s.part.rtu.attempts + 1
              activity := .backoff, distance := 0, dockKey := key } ∧
            EntriesAdded s t [(.dockAttempt, s.part.rtu.attempts + 1, 0)])) ∧
      (s.part.rtu.activity = .backoff →
        (distance < s.part.rtu.params.backoff → goesOn) ∧
        (s.part.rtu.params.backoff ≤ distance → s.part.rtu.attempts < s.part.rtu.params.retries →
          ∃ t key, exec .shaperPeriod s = .next t ∧ t.part.fcu.mode = .docking ∧
            t.part.rtu = { s.part.rtu with
              params := s.part.rtu.copies, activity := .approach, distance := 0, finalApproach := false
              settle := 0, dockKey := key }) ∧
        (s.part.rtu.params.backoff ≤ distance → s.part.rtu.params.retries ≤ s.part.rtu.attempts →
          halts .dockFailed))))

/-- The period computation. An expiry in a moving mode with none in progress begins one for the source of motion
as it then stands, new where the previous computation's source was another, and asks for the settings entry; one
in progress goes on, and passes nothing where the source of motion has changed. The settings read goes on to the
current zone's entry where the zone is known. At the end the setpoints of both wheels are passed by the rules of
the effective cap, the slope cap, the targets and the steering; after a stop, a change of source or outside the
moving modes nothing is passed (R90 to R99). The source is the one behind the credit of the same event (log 22),
and the lookahead half is that of log 23. The settings values that a computation holds lie within their fields
(StepKeepsTheWriteTheSlotAndTheSettings). The order of its two reads is log 47; that every step of it reads what it
uses in the event of the last read is log 51; the copy of the maneuver speed that the settings read leaves is log
46. -/
def Obligations.PeriodComputationPassesSetpoints : Prop :=
  (∀ s : State,
    ∃ t, exec .shaperPeriod s = .next t ∧
      (s.part.msh.computation = none → t.part.fcu.mode.moving = true →
        t.part.msh.source = t.part.motionSource ∧
        t.part.msh.computation = some
          ⟨t.part.motionSource, decide (t.part.motionSource ≠ s.part.msh.source), false, .settings⟩ ∧
        AccessRequested t .shaper (.entryRead .settings 0) .shaper) ∧
      (∀ c, s.part.msh.computation = some c →
        ∃ stopped, t.part.msh.computation = some { c with stopped := stopped } ∧
          (c.stopped = true → stopped = true) ∧
          (s.part.motionSource = c.source → t.part.motionSource ≠ c.source → stopped = true) ∧
          t.part.msh.source = s.part.msh.source)) ∧
  (∀ (s : State) (c : Computation), ReadGranted s .shaper .settings 0 .shaper →
    s.part.msh.computation = some c → c.stage = .settings → NoFrameWaits s → Sound s .settings 0 →
    let v := storedFields s .settings 0
    (∀ z, s.part.ltr.zone = some z →
      ∃ t, exec .entryReadDone s = .next t ∧
        t.part.msh = { s.part.msh with
          computation := some { c with stage := .zone v }, maneuverSpeed := settingOf v 11 } ∧
        AccessRequested t .shaper (.entryRead .zone z) .shaper) ∧
    (s.part.ltr.zone = none → c.stopped = false → s.part.motionSource = c.source →
      s.part.fcu.mode.moving = true →
      ∃ t, exec .entryReadDone s = .next t ∧ PeriodPassed s t c v none (settingOf v 11))) ∧
  (∀ (s : State) (c : Computation) (v : List Int) (z : Nat), ReadGranted s .shaper .zone z .shaper →
    s.part.msh.computation = some c → c.stage = .zone v → WithinSettings v → NoFrameWaits s →
    let ends := c.stopped = true ∨ s.part.motionSource ≠ c.source ∨ s.part.fcu.mode.moving = false
    (ends → Sound s .zone z →
      ∃ t, exec .entryReadDone s = .next t ∧ t.part.msh.computation = none ∧
        t.part.msh.previousLeft = s.part.msh.previousLeft ∧
        t.part.msh.previousRight = s.part.msh.previousRight ∧ t.part.dbm = s.part.dbm) ∧
    (¬ ends → Sound s .zone z →
      ∃ t, exec .entryReadDone s = .next t ∧
        PeriodPassed s t c v (some (storedFields s .zone z)) s.part.msh.maneuverSpeed) ∧
    (¬ ends → s.part.tst.poisoned.get .zone z = true →
      ∃ t, exec .entryReadDone s = .next t ∧ PeriodPassed s t c v none s.part.msh.maneuverSpeed))

/-- The hold timer of the active response expires: a SLOW or STOP_BLADE ends and the hazard level is 0; a PAUSE
returns the mode to RUN as well. No response is pending. A period expiry credits an active BACK_TURN with the roll
of the wheels, halved with the carry: a phase below its distance goes on with the step added, a REVERSE phase that
reaches its distance becomes a SPIN phase with progress 0, and a SPIN phase that reaches its distance ends the
BACK_TURN and returns the mode to RUN where that is the resume mode (no response is pending). At a maneuver speed
of 0 it makes no progress and goes on (R10, R107, R148, R150 to R153). That the maneuver speed of a credit is the
shaper's copy, and that at speed 0 a phase of distance 0 goes on too, is log 46. -/
def Obligations.ResponsesEndOnTheirCompletion : Prop :=
  (∀ (s : State) (a : Active), s.part.hre.active = some a → a.timer ≠ none → s.part.hre.pending = none →
    NoFrameWaits s →
    (a.response.action = .slow ∨ a.response.action = .stopBlade →
      ∃ t, exec .responseHoldExpiry s = .next t ∧ NoResponse t ∧ t.part.fcu.hazardLevel = 0 ∧
        t.part.fcu.mode = s.part.fcu.mode ∧ t.part.sq = s.part.sq ∧ t.part.rtu = s.part.rtu) ∧
    (a.response.action = .pause → s.part.fcu.mode = .maneuver → s.part.fcu.resume = some .run →
      ∃ t, exec .responseHoldExpiry s = .next t ∧ NoResponse t ∧ t.part.fcu.hazardLevel = 0 ∧
        t.part.fcu.mode = .run ∧ t.part.fcu.resume = none ∧ t.part.sq.queue = s.part.sq.queue)) ∧
  (∀ (s : State) (a : Active), s.part.hre.active = some a → a.response.action = .backTurn →
    NoFrameWaits s →
    let dL := s.part.msh.wheels.left.distance
    let dR := s.part.msh.wheels.right.distance
    let carry := if s.part.msh.credited = some (.maneuver a.key a.spinning) then s.part.msh.progressCarry else 0
    let rolled := if a.spinning = true then dL.natAbs + dR.natAbs else (dL + dR).natAbs
    let progress := a.progress + (rolled + carry) / 2
    let distance := if a.spinning = true then a.response.spin else a.response.reverse
    ∃ t, exec .shaperPeriod s = .next t ∧ t.mem = s.mem ∧ t.pending = s.pending ∧
      (s.part.msh.maneuverSpeed = 0 → t.part.hre = s.part.hre ∧ t.part.fcu.mode = s.part.fcu.mode) ∧
      (s.part.msh.maneuverSpeed ≠ 0 →
        (progress < distance → t.part.hre.active = some { a with progress := progress }) ∧
        (a.spinning = false → distance ≤ progress →
          t.part.hre.active = some { a with spinning := true, progress := 0 }) ∧
        (a.spinning = true → distance ≤ progress → s.part.hre.pending = none →
          NoResponse t ∧ t.part.fcu.hazardLevel = 0 ∧
          (s.part.fcu.mode = .maneuver → s.part.fcu.resume = some .run →
            t.part.fcu.mode = .run ∧ t.part.fcu.resume = none))))

/-- An entry joins the tail of its class's buffer with the part clock: a buffer that holds 12 loses its oldest
and sets the gap mark, an empty one starts the hold timer, and the quiet timer restarts; a limit of 0 leaves a
timer stopped. The class then emits where the entry is urgent, or the buffer holds the batch limit or 12: one
NOTICE with every pending entry, oldest first, and the gap mark, behind the transmit list, and the buffer empty
with both timers stopped. While the class's previous NOTICE waits, the emit-due mark is set instead.
MODE_CHANGED entries are urgent into HALTED and SAFE, HAZARD entries of the urgent level and above and of
unconditional responses, and no others. The expiry of the keep timer in a mode that does not move adds its
KEEP_STATE entry so, and nothing else happens. The expiry of a class's hold timer or quiet timer is a cause of
emission, too (R15, R20, R156, R197, R198). A quiet timer that has run out in the same millisecond is left for
its expiry, taken behind the entry, as R198 allows. -/
def Obligations.EntriesJoinAndClassesEmit : Prop :=
  (∀ (p : Part) (urgent : Bool) (kind : EntryKind) (subject value : Nat),
    let c := kind.noticeClass
    let b := p.nco.classes.get c
    let start := fun limit : Nat => if limit = 0 then none else some limit
    let joined : ClassBuffer :=
      { b with
        entries := (if 12 ≤ b.entries.length then b.entries.tail else b.entries) ++
          [⟨kind, subject, value, p.clock⟩]
        gap := b.gap || decide (12 ≤ b.entries.length)
        holdTimer := if b.entries = [] then start b.holdLimit else b.holdTimer
        quietTimer := if b.quietTimer = some 0 then some 0 else start b.quietLimit }
    let emits := urgent = true ∨ b.batch ≤ joined.entries.length ∨ 12 ≤ joined.entries.length
    let waits := ∃ gap entries, TxFrame.notice c gap entries ∈ p.plp.tx
    let after := p.addEntryUrgent urgent kind subject value
    (¬ emits → after = { p with nco.classes := p.nco.classes.set c joined }) ∧
    (emits → ¬ waits → after =
      { p with
        nco.classes := p.nco.classes.set c
          { joined with entries := [], holdTimer := none, quietTimer := none, gap := false }
        plp.tx := p.plp.tx ++ [.notice c joined.gap joined.entries] }) ∧
    (emits → waits → after = { p with nco.classes := p.nco.classes.set c { joined with due := true } })) ∧
  (∀ (p : Part) (kind : EntryKind) (subject value : Nat) (r : Response),
    p.addEntry kind subject value = p.addEntryUrgent false kind subject value ∧
    p.addModeChanged =
      p.addEntryUrgent (decide (p.fcu.mode = .halted ∨ p.fcu.mode = .safe)) .modeChanged p.fcu.mode.code
        (p.fcu.stopCause.code + 256 * p.fcu.stopCause.rule) ∧
    p.addHazard kind r =
      p.addEntryUrgent (decide (r.unconditional = true ∨ p.nco.urgentLevel ≤ r.level)) kind (r.rule.getD 255)
        (r.source.code + 256 * r.action.code + 4096 * r.level +
          (if r.unconditional = true then 65536 else 0))) ∧
  (∀ s : State, Quiet s → s.part.fcu.keepTimer ≠ none → s.part.fcu.mode.moving = false →
    exec .keepTimerExpiry s =
      .next { s with
        part := { s.part with fcu.keepTimer := none, fcu.keepSilent := true }.addEntry .keepState 0 1 }) ∧
  (∀ (s : State) (c : NoticeClass), Quiet s →
    let b := s.part.nco.classes.get c
    let emitted : State :=
      { s with part := { s.part with
          nco.classes := s.part.nco.classes.set c
            { b with entries := [], holdTimer := none, quietTimer := none, gap := false }
          plp.tx := s.part.plp.tx ++ [.notice c b.gap b.entries] } }
    (b.entries ≠ [] → s.part.plp.noticeWaits c = false →
      (b.holdTimer ≠ none → exec (.noticeHoldExpiry c) s = .next emitted) ∧
      (b.quietTimer ≠ none → exec (.noticeQuietExpiry c) s = .next emitted)) ∧
    (s.part.plp.noticeWaits c = true →
      (b.holdTimer ≠ none → exec (.noticeHoldExpiry c) s =
        .next { s with part := { s.part with
          nco.classes := s.part.nco.classes.set c { b with holdTimer := none, due := true } } }) ∧
      (b.quietTimer ≠ none → exec (.noticeQuietExpiry c) s =
        .next { s with part := { s.part with
          nco.classes := s.part.nco.classes.set c { b with quietTimer := none, due := true } } })))

/-- The scrub timer expires: it restarts with its period. With the store mode NORMAL and no scrub access waiting
or in progress, the word at the scrub pointer is asked for; at other expiries nothing else happens (R188, R189).
A scrub access completes: the pointer advances, from 365 to 0. A word with a single error is written back
corrected, with generated check bits, and the single flag is set; a word with no error, or an uncorrectable one,
stays; every other word is as it was (R187, R189). -/
def Obligations.ScrubAsksAndRepairs : Prop :=
  (∀ s : State, Quiet s → NoFrameWaits s → s.part.tst.scrubTimer ≠ none →
     let busy := (∃ q ∈ s.part.tst.waiting, q.owner = .scrub) ∨
       s.part.tst.current.map (·.request.owner) = some .scrub
     (s.part.tst.mode = .normal → ¬ busy →
       ∃ t, exec .scrubExpiry s = .next t ∧ t.part.tst.scrubTimer = some s.part.tst.scrubPeriod ∧
         AccessRequested t .scrub (.scrub s.part.tst.scrubPointer) .scrub) ∧
     (s.part.tst.mode ≠ .normal ∨ busy →
       exec .scrubExpiry s =
         .next { s with part := { s.part with tst.scrubTimer := some s.part.tst.scrubPeriod } })) ∧
  (∀ (s : State) (n : Nat) (m : StoreMode) (discard : Bool),
     s.part.tst.current = some ⟨⟨.scrub, .scrub n, .scrub⟩, m, discard⟩ → n < 366 → NoFrameWaits s →
     ∃ t, exec .scrubAccessDone s = .next t ∧
       t.part.tst.scrubPointer = (s.part.tst.scrubPointer + 1) % 366 ∧
       (∀ d, (s.mem.read n).judge = .single d →
         t.mem.read n = generatedWord d ∧ t.part.tst.log.single = true ∧
         t.part.tst.poisoned = s.part.tst.poisoned) ∧
       ((s.mem.read n).syndrome = 0 → t.mem.read n = s.mem.read n ∧ t.part.tst.log = s.part.tst.log) ∧
       ((s.mem.read n).judge = .uncorrectable →
         t.mem.read n = s.mem.read n ∧ t.part.tst.log.uncorrectable = true ∧
         ((wordPlace n).1.isProtected = true → t.part.fcu.mode = .safe) ∧
         ((wordPlace n).1.isProtected = false →
           t.part.tst.poisoned.get (wordPlace n).1 (wordPlace n).2.1 = true)) ∧
       (∀ k, k ≠ n → t.mem.read k = s.mem.read k) ∧ t.pending = s.pending)

/-! ### The drive bus -/

/-- A wheel node's ACCEPT to the SETPOINT, with or without a lookahead half, or STOP on the wire: the node is
ONLINE and holds no longer, the tick count is converted for that wheel and kept as the last payload, and the
other wheel is as it was. The delta is the difference modulo 65536 as a signed value; within 3000 mm/s over the
time since the reference it adds its distance, rounded down with the carry; beyond, and for a first count, only
the reference is set (R104, R105, R112, R114, R116). A YIELD for the lookahead half makes a report owed (R121). -/
def Obligations.WheelAnswerIsConverted : Prop :=
  ∀ (s : State) (a : NodeAnswer) (e : Exchange), NoFrameWaits s → a.node ≠ 2 → AnswersTheTry s a false →
    a.current = ⟨true, false, false, false⟩ → (s.part.node a.node).inHand = some e →
    (e.transfer = .stop ∨ ∃ v l, e.transfer = .setpoint v l) →
    (s.part.node a.node).superseded = false →
    let wheel := fun x : State => if a.node = 0 then x.part.msh.wheels.left else x.part.msh.wheels.right
    let other := fun x : State => if a.node = 0 then x.part.msh.wheels.right else x.part.msh.wheels.left
    let k := s.part.msh.kilotick
    let referred : Wheel := { wheel s with reference := some a.ticks, referenceTime := s.part.clock }
    ∃ t, exec (.nodeAnswer a) s = .next t ∧ (t.part.node a.node).standing = .online ∧
      (t.part.node a.node).hold = none ∧ (t.part.node a.node).lastPayload = some (.ticks a.ticks) ∧
      other t = other s ∧
      ((wheel s).reference = none → wheel t = referred) ∧
      (∀ (r : BitVec 16) (delta : Int), (wheel s).reference = some r → -32768 ≤ delta → delta < 32768 →
        ((a.ticks.toNat : Int) - r.toNat - delta) % 65536 = 0 →
        let time := (s.part.clock - (wheel s).referenceTime).toNat
        (3000 * time < delta.natAbs * k → wheel t = referred) ∧
        (delta.natAbs * k ≤ 3000 * time →
          (wheel t).reference = some a.ticks ∧ (wheel t).referenceTime = s.part.clock ∧
          1000 * ((wheel t).distance - (wheel s).distance) + (wheel t).carry =
            delta * k + (wheel s).carry ∧
          (wheel t).carry < 1000)) ∧
      (∀ v l, e.transfer = .setpoint v (some l) → a.lookahead.yield = true →
        (t.part.node a.node).reportOwed = true) ∧
      t.part.fcu.mode = s.part.fcu.mode ∧ t.part.sq = s.part.sq ∧ t.part.sin = s.part.sin ∧
      t.mem = s.mem ∧ t.pending = s.pending

/-- The blade's answers. A guard read that reports the guard CLOSED while permission stands is followed by the
BLADE_RUN in the same event, with the interlock state WRITING; without permission the arm ends at the midpoint
and an ARMING blade is OFF; an OPEN guard or a REJECT refuses the arm, which makes an ARMING blade OFF with the
arm-refused mark, and asks a SPINNING one to stop. A BLADE_RUN accepted makes an ARMING or SPINNING blade
SPINNING with its level; rejected, it is a DRIVE_FAULT too. A BLADE_STOP accepted makes a SPINNING blade
STOPPING and asks for its status, and a BLADE_STATUS with rpm 0 makes it OFF; rpm above 0 asks again (R17, R18,
R127 to R130). That an arm ended at the midpoint leaves a blade that is STOPPING or OFF as it is is log 40. That
the midpoint check asks for permission as it stands, whether a BLADE_STOP waits or not, is log 49. -/
def Obligations.BladeAnswersMoveTheInterlock : Prop :=
  ∀ (s : State) (a : NodeAnswer) (e : Exchange), NoFrameWaits s → a.node = 2 → AnswersTheTry s a false →
    (s.part.node 2).inHand = some e → (s.part.node 2).superseded = false → (s.part.node 2).slot = {} →
    let accepted := a.current = ⟨true, false, false, false⟩
    let rejected := a.current.yield = false ∧ a.current.hold = false ∧ a.current.reject = true
    let refused := fun t : State =>
      (s.part.fcu.blade = .arming → t.part.fcu.blade = .off ∧ t.part.fcu.armRefused = true) ∧
      (∀ level, s.part.fcu.blade = .spinning level →
        t.part.fcu.blade = .spinning level ∧ t.part.fcu.armRefused = true ∧ StopAsked t 2) ∧
      t.part.dbm.interlock = .none ∧ (t.part.node 2).standing = .online
    (∀ level, e.transfer = .guardRead level →
      (accepted → a.guardClosed = true → s.part.bladePermitted = true →
        ∃ t, exec (.nodeAnswer a) s = .next t ∧ t.part.dbm.interlock = .writing ∧
          (t.part.node 2).inHand = some { transfer := .bladeRun level } ∧
          t.part.dbm.bus = .wire 2 false (s.part.dbm.number + 1) s.part.dbm.responseLimit ∧
          t.part.fcu = s.part.fcu ∧ (t.part.node 2).lastPayload = some (.blade a.rpm true)) ∧
      (accepted → a.guardClosed = true → s.part.bladePermitted = false →
        ∃ t, exec (.nodeAnswer a) s = .next t ∧ t.part.dbm.interlock = .none ∧
          (s.part.fcu.blade = .arming → t.part.fcu.blade = .off) ∧
          (s.part.fcu.blade ≠ .arming → t.part.fcu.blade = s.part.fcu.blade) ∧
          t.part.fcu.armRefused = s.part.fcu.armRefused) ∧
      (accepted ∧ a.guardClosed = false ∨ rejected →
        ∃ t, exec (.nodeAnswer a) s = .next t ∧ refused t)) ∧
    (∀ level, e.transfer = .bladeRun level →
      (accepted →
        ∃ t, exec (.nodeAnswer a) s = .next t ∧ (t.part.node 2).standing = .online ∧
          (s.part.fcu.blade = .arming ∨ (∃ l, s.part.fcu.blade = .spinning l) →
            t.part.fcu.blade = .spinning level) ∧
          (s.part.fcu.blade = .arming → s.part.fcu.permission = true → s.part.fcu.levelToSend ≠ level →
            ArmAsked t s.part.fcu.levelToSend)) ∧
      (rejected →
        ∃ t, exec (.nodeAnswer a) s = .next t ∧ refused t ∧ WalkRequested t .driveFault 2 3)) ∧
    (e.transfer = .bladeStop → accepted →
      ∃ t, exec (.nodeAnswer a) s = .next t ∧ (t.part.node 2).standing = .online ∧
        (∀ level, s.part.fcu.blade = .spinning level → t.part.fcu.blade = .stopping ∧ StatusAsked t)) ∧
    (e.transfer = .bladeStatus → accepted → s.part.fcu.blade = .stopping →
      ∃ t, exec (.nodeAnswer a) s = .next t ∧
        (a.rpm ≠ 0 → t.part.fcu.blade = .stopping ∧ StatusAsked t) ∧
        (a.rpm = 0 → s.part.bladePermitted = false ∨ s.part.fcu.armRefused = true →
          t.part.fcu.blade = .off))

/-- An answer honoured as YIELD, HOLD or REJECT for the exchange in hand, whatever signals of a later row it
carries. YIELD makes a report owed and suspends the exchange; for the write of an arm it is treated as HOLD.
HOLD makes the node HOLDING, with its hold start kept or set, and the exchange waits; once the hold limit has
passed the node is LOST and the part SAFE. REJECT ends a SETPOINT refused, with a DRIVE_FAULT; of a stop it is
held, with a DRIVE_FAULT on the first refusal. An answer to a superseded SETPOINT ends it, its ticks are not
handed on (log 9), and the stop asked for is next; HOLD for it once the hold limit has passed makes the node LOST,
which is log 9 too (R112, R116 to R119, R124, R129). That a dropped exchange leaves the grant's hold is log 28. -/
def Obligations.AnswersThatDoNotAccept : Prop :=
  ∀ (s : State) (a : NodeAnswer) (e : Exchange), NoFrameWaits s → AnswersTheTry s a false →
    (s.part.node a.node).inHand = some e →
    let n := a.node
    let d := s.part.node n
    let writing := n = 2 ∧ s.part.dbm.interlock = .writing
    let hold := a.current.yield = false ∧ a.current.hold = true
    let reject := a.current.yield = false ∧ a.current.hold = false ∧ a.current.reject = true
    let holds := fun (t : State) (refused : Bool) =>
      (t.part.node n).standing = .holding ∧
      (t.part.node n).inHand = some { e with held := true, refused := refused } ∧
      (t.part.node n).hold =
        some (d.hold.getD { start := s.part.clock, left := s.part.dbm.holdLimit, grant := false }) ∧
      t.part.fcu.mode = s.part.fcu.mode ∧ t.part.msh = s.part.msh
    (d.superseded = false → (∀ v l, e.transfer ≠ .setpoint v (some l)) →
      (a.current.yield = true → ¬ writing →
        ∃ t, exec (.nodeAnswer a) s = .next t ∧ (t.part.node n).standing = .online ∧
          (t.part.node n).hold = none ∧ (t.part.node n).reportOwed = true ∧
          (t.part.node n).suspended = true ∧
          (t.part.node n).inHand = some { e with held := false } ∧ t.part.msh = s.part.msh ∧
          t.part.hre = s.part.hre) ∧
      (a.current.yield = true → writing → ¬ HoldPassed s n →
        ∃ t, exec (.nodeAnswer a) s = .next t ∧ holds t e.refused ∧
          (t.part.node n).reportOwed = true) ∧
      (hold → ¬ HoldPassed s n → ∃ t, exec (.nodeAnswer a) s = .next t ∧ holds t e.refused) ∧
      (hold → HoldPassed s n →
        ∃ t, exec (.nodeAnswer a) s = .next t ∧ (t.part.node n).standing = .lost ∧
          (t.part.node n).inHand = none ∧ t.part.fcu.mode = .safe ∧
          (s.part.fcu.mode ≠ .safe → t.part.fcu.stopCause = .nodeLost)) ∧
      (reject → (∀ v, e.transfer = .setpoint v none →
        ∃ t, exec (.nodeAnswer a) s = .next t ∧ (t.part.node n).standing = .online ∧
          WalkRequested t .driveFault n.val 1 ∧ t.part.msh = s.part.msh ∧
          (t.part.node n).lastPayload = d.lastPayload ∧
          (d.slot = {} → d.statusWanted = false → (t.part.node n).inHand = none))) ∧
      (reject → ¬ HoldPassed s n →
        (e.transfer = .stop →
          ∃ t, exec (.nodeAnswer a) s = .next t ∧ holds t true ∧
            (e.refused = false → WalkRequested t .driveFault n.val 2) ∧
            (e.refused = true → t.part.hre = s.part.hre)) ∧
        (e.transfer = .bladeStop →
          ∃ t, exec (.nodeAnswer a) s = .next t ∧ holds t true ∧
            (e.refused = false → WalkRequested t .driveFault n.val 4) ∧
            (e.refused = true → t.part.hre = s.part.hre)) ∧
        (e.transfer = .bladeStatus →
          ∃ t, exec (.nodeAnswer a) s = .next t ∧ holds t true ∧ t.part.hre = s.part.hre))) ∧
    (d.superseded = true → (∃ v l, e.transfer = .setpoint v l) → hold → HoldPassed s n →
      ∃ t, exec (.nodeAnswer a) s = .next t ∧ (t.part.node n).standing = .lost ∧
        (t.part.node n).inHand = none ∧ t.part.fcu.mode = .safe ∧
        (s.part.fcu.mode ≠ .safe → t.part.fcu.stopCause = .nodeLost)) ∧
    (d.superseded = true → n ≠ 2 → (∃ v l, e.transfer = .setpoint v l) → d.slot.stop = true →
      a.current.any = true → ¬ (hold ∧ HoldPassed s n) →
      ∃ t, exec (.nodeAnswer a) s = .next t ∧ t.part.msh.wheels = s.part.msh.wheels ∧
        (t.part.node n).lastPayload = d.lastPayload ∧ (t.part.node n).superseded = false ∧
        StopAsked t n ∧ (t.part.node n).inHand.map (·.transfer.isSetpoint) ≠ some true ∧
        (a.current.yield = true → (t.part.node n).reportOwed = true) ∧
        (hold → (t.part.node n).standing = .holding ∧
          ((∀ h, d.hold = some h → h.grant = false) → (t.part.node n).hold = none)) ∧
        (¬ hold → (t.part.node n).standing = .online ∧ (t.part.node n).hold = none))

/-- The report grant. An answer honoured as ACCEPT or YIELD hands on its report: the walk of its report kind is
requested. ACCEPT and REJECT end the grant and the suspended exchange is offered again whole, with try count 1;
after YIELD a report is owed again. HOLD makes the node hold the grant, and the third silent try loses the node
(R115, R117, R119). None of them replaces the last payload (log 36). The mark that the hold is the grant's is
the model's (log 28). No grant is on the wire to the blade while the write of an arm has the bus
(StepKeepsTheWriteTheSlotAndTheSettings). That an exchange that was not suspended keeps its try count behind the
grant is log 48. -/
def Obligations.ReportGrantIsAnswered : Prop :=
  ∀ (s : State) (a : NodeAnswer) (g : Grant), NoFrameWaits s → AnswersTheTry s a true →
    (s.part.node a.node).grant = some g →
    let n := a.node
    let d := s.part.node n
    let hold := a.current.yield = false ∧ a.current.hold = true
    let reject := a.current.yield = false ∧ a.current.hold = false ∧ a.current.reject = true
    let ended := fun t : State =>
      (t.part.node n).standing = .online ∧ (t.part.node n).hold = none ∧ (t.part.node n).grant = none ∧
      (t.part.node n).reportOwed = false ∧ (t.part.node n).suspended = false ∧
      (t.part.node n).lastPayload = d.lastPayload ∧ t.part.msh = s.part.msh ∧
      ∀ e, d.inHand = some e → (n = 2 → s.part.dbm.interlock ≠ .writing) →
        (t.part.node n).inHand =
          some { e with held := false, tries := if d.suspended then 1 else e.tries }
    (a.current = ⟨true, false, false, false⟩ →
      ∃ t, exec (.nodeAnswer a) s = .next t ∧ ended t ∧ ReportTaken s t a) ∧
    (reject → ∃ t, exec (.nodeAnswer a) s = .next t ∧ ended t ∧ t.part.hre = s.part.hre) ∧
    (a.current.yield = true → (n = 2 → s.part.dbm.interlock ≠ .writing) →
      ∃ t, exec (.nodeAnswer a) s = .next t ∧ (t.part.node n).standing = .online ∧
        (t.part.node n).reportOwed = true ∧ (t.part.node n).suspended = d.suspended ∧
        ReportTaken s t a) ∧
    (hold → ¬ HoldPassed s n →
      ∃ t, exec (.nodeAnswer a) s = .next t ∧ (t.part.node n).standing = .holding ∧
        (t.part.node n).grant = some { g with held := true } ∧
        (t.part.node n).hold =
          some { d.hold.getD { start := s.part.clock, left := s.part.dbm.holdLimit } with grant := true } ∧
        (t.part.node n).lastPayload = d.lastPayload) ∧
    (hold → HoldPassed s n →
      ∃ t, exec (.nodeAnswer a) s = .next t ∧ (t.part.node n).standing = .lost ∧
        t.part.fcu.mode = .safe) ∧
    (3 ≤ g.tries →
      ∃ t, exec .responseTimeout s = .next t ∧ (t.part.node n).standing = .lost ∧
        t.part.fcu.mode = .safe) ∧
    (g.tries < 3 →
      ∃ t, exec .responseTimeout s = .next t ∧
        (t.part.node n).grant = some { g with tries := g.tries + 1 } ∧
        (t.part.node n).standing = d.standing)

/-- A silent try of an exchange: before the third, the exchange stays in hand to be tried again; after the third
the node is LOST with nothing in hand and nothing waiting, and the part enters SAFE with stop cause NODE_LOST
(R14, R115, R120). -/
def Obligations.SilentTriesLoseTheNode : Prop :=
  ∀ (s : State) (n : Fin 3) (number : Byte) (left : Nat) (e : Exchange), NoFrameWaits s →
    s.part.dbm.bus = .wire n false number left → (s.part.node n).inHand = some e →
    (e.tries < 3 → (s.part.node n).superseded = false →
      (n = 2 → s.part.dbm.interlock = .writing → s.part.bladePermitted = true) →
      ∃ t, exec .responseTimeout s = .next t ∧
        (t.part.node n).inHand = some { e with tries := e.tries + 1 } ∧
        (t.part.node n).standing = (s.part.node n).standing ∧
        t.part.fcu.mode = s.part.fcu.mode ∧ t.part.msh = s.part.msh ∧ t.mem = s.mem) ∧
    (3 ≤ e.tries →
      ∃ t, exec .responseTimeout s = .next t ∧ (t.part.node n).standing = .lost ∧
        (t.part.node n).inHand = none ∧ (t.part.node n).slot = {} ∧ t.part.fcu.mode = .safe ∧
        (s.part.fcu.mode ≠ .safe → t.part.fcu.stopCause = .nodeLost ∧ t.part.sq.queue = []))

/-- A ready signal offers again what a holding node holds, and so does the passing of its hold limit, after
which nothing is left of the hold (R117). -/
def Obligations.HeldExchangeIsOfferedAgain : Prop :=
  ∀ (s : State) (n : Fin 3) (e : Exchange), (s.part.node n).standing = .holding →
    (s.part.node n).inHand = some e →
    (n = 2 → s.part.dbm.interlock = .writing → s.part.bladePermitted = true) →
    (∃ t, exec (.readySignal n) s = .next t ∧ (t.part.node n).inHand = some { e with held := false } ∧
      (t.part.node n).hold = (s.part.node n).hold ∧ (t.part.node n).standing = .holding ∧
      t.part.msh = s.part.msh ∧ t.mem = s.mem ∧ t.pending = s.pending) ∧
    (∃ t, exec (.holdLimitExpiry n) s = .next t ∧
      (t.part.node n).inHand = some { e with held := false } ∧
      (t.part.node n).hold = (s.part.node n).hold.map (fun h => { h with left := 0 }) ∧
      (t.part.node n).standing = .holding ∧ t.part.msh = s.part.msh ∧ t.mem = s.mem ∧
      t.pending = s.pending)

/-! ### The table store -/

/-- The read of a TABLE_READ completes, in every store mode. A poisoned entry is answered STORE_ERROR with the
mark 1, its words not looked at. An entry whose words can be used is answered OK with its value block, words
with a single error corrected; one whose words cannot, STORE_ERROR: a protected entry also raises TABLE_FAULT,
an open one is poisoned in NORMAL, and in DETECT_ONLY even for a single error, and is not in TEST, where the
read fills the check capture. The error log takes the errors, and the words stay as they are (R180 to R184,
R187, R194). The mark is sent as 1 or 0 (log 10). That the single flag is set in DETECT_ONLY for an entry whose
words are only uncorrectable, as R181 says and R187 does not, is the model's choice (log 17). -/
def Obligations.TableReadIsAnswered : Prop :=
  ∀ (s : State) (tab : Table) (i : Nat) (m : StoreMode) (f : RxFrame),
    s.part.tst.current = some ⟨⟨.planner, .entryRead tab i, .plannerRead⟩, m, false⟩ → i < tab.entries →
    s.part.plp.op = some (.tableRead tab i) → s.part.plp.inHand = some f → NoFrameWaits s →
    let words := s.mem.readEntry tab i
    let used := words.map fun w =>
      match w.judge with
      | .clean d => d
      | .single d => d
      | .uncorrectable => w.data
    let bad := ∃ w ∈ words, w.judge = .uncorrectable
    let single := ∃ w ∈ words, ∃ d, w.judge = .single d
    let isOpen := tab.isProtected = false
    let read := fun (t : State) (code : AnswerCode) (mark : Byte) (data : List Byte) =>
      exec .entryReadDone s = .next t ∧
      TxFrame.answer f.tag code ([byte tab.code, byte i, mark] ++ data) ∈ t.part.plp.tx ∧
      t.mem = s.mem ∧ t.pending = s.pending ∧ t.part.sin = s.part.sin ∧
      (¬ (m = .test ∧ isOpen) → t.part.tst.capture = s.part.tst.capture)
    let kept := fun t : State =>
      t.part.tst.poisoned = s.part.tst.poisoned ∧ t.part.fcu.mode = s.part.fcu.mode ∧
      t.part.sq = s.part.sq ∧ t.part.rtu = s.part.rtu
    let located := fun t : State =>
      t.part.tst.log.uncorrectable = true ∧
      ∃ l, t.part.tst.log.location = some l ∧ l.uncorrectable = true ∧ l.table = tab ∧ l.entry = i ∧
        l.reader = .plannerRead
    (s.part.tst.poisoned.get tab i = true →
      ∃ t, read t .storeError 1 [] ∧ kept t ∧ t.part.tst.log = s.part.tst.log ∧
        t.part.tst.capture = s.part.tst.capture) ∧
    (s.part.tst.poisoned.get tab i = false →
      (¬ bad → ¬ (single ∧ m = .detectOnly ∧ isOpen) →
        ∃ t, read t .ok 0 (valueBlock tab (entryFields tab used)) ∧ kept t ∧
          (single → t.part.tst.log.single = true) ∧ (¬ single → t.part.tst.log = s.part.tst.log) ∧
          t.part.tst.log.uncorrectable = s.part.tst.log.uncorrectable) ∧
      (bad → tab.isProtected = true →
        ∃ t, read t .storeError 0 [] ∧ t.part.tst.poisoned = s.part.tst.poisoned ∧ located t ∧
          t.part.fcu.mode = .safe ∧ (s.part.fcu.mode ≠ .safe → t.part.fcu.stopCause = .tableFault)) ∧
      (bad ∨ single ∧ m = .detectOnly → isOpen → m ≠ .test →
        ∃ t, read t .storeError 1 [] ∧ located t ∧
          t.part.tst.poisoned = s.part.tst.poisoned.put tab i true ∧
          t.part.fcu.mode = s.part.fcu.mode ∧ (m = .detectOnly → t.part.tst.log.single = true)) ∧
      (bad → isOpen → m = .test →
        ∃ t, read t .storeError 0 [] ∧ kept t ∧ t.part.tst.log.uncorrectable = true) ∧
      (isOpen → m = .test →
        ∃ t, exec .entryReadDone s = .next t ∧
          t.part.tst.capture = some
            { table := tab, entry := i
              words := (List.range tab.words).map fun w => (w, (s.mem.read (wordNumber tab i w)).check) }))

/-- A full-entry write completes: the entry's words hold the new data, with generated check bits, or with the
test pattern where the entry is open and the write was granted in TEST; every other word is as it was; the
poisoned mark is clear; the write is answered OK (R178, R185). A partial write in store mode NORMAL. Where a
word it touches is uncorrectable it is answered STORE_ERROR, with every word as it was. Where the words it
touches are sound and the entry as it would stand passes its table's checks, those words hold the merged entry
with generated check bits, every other word is as it was, and it is answered OK. The poisoned marks stay either
way (R178, R183, R186). The words of a partial write are packed anew from the fields, with 0 in the bits that no
field holds (log 45). Either kind of write of the settings entry gives every working copy the values the entry
then holds, and restarts the scrub timer with its period, or stops it for 0; a write of another table leaves
them all. The settings read behind a reset gives the copies the values read, but for those of the drive bus
master and the scrub, or the defaults where it finds the entry unusable, and so does the scrub's own read with
the scrub period and its timer (R131, R137, R175, R188, R197). The order of the class limits in the entry is log
44, the shaper's copy of the maneuver speed log 46. -/
def Obligations.WritesStoreTheirWords : Prop :=
  (∀ (s : State) (tab : Table) (i : Nat) (fields : List Int) (m : StoreMode) (f : RxFrame),
     s.part.tst.current = some ⟨⟨.planner, .fullWrite tab i fields, .plannerWrite⟩, m, false⟩ →
     i < tab.entries → s.part.plp.inHand = some f → NoFrameWaits s →
     ∃ t, exec .fullEntryWriteDone s = .next t ∧
       t.mem.readEntry tab i =
         (entryWords tab fields).map (fun d =>
           if m = .test ∧ tab.isProtected = false then ⟨d, s.part.tst.pattern⟩ else generatedWord d) ∧
       (∀ n, (∀ w, w < tab.words → n ≠ wordNumber tab i w) → t.mem.read n = s.mem.read n) ∧
       t.part.tst.poisoned.get tab i = false ∧ TxFrame.answer f.tag .ok [] ∈ t.part.plp.tx ∧
       (tab = .settings →
         CopiesHold t fields ∧ BusCopiesHold t fields ∧ ScrubStarted t (settingOf fields 45)) ∧
       (tab ≠ .settings → CopiesKept s t ∧ t.part.dbm.responseLimit = s.part.dbm.responseLimit ∧
         t.part.dbm.holdLimit = s.part.dbm.holdLimit ∧ t.part.tst.scrubPeriod = s.part.tst.scrubPeriod ∧
         t.part.tst.scrubTimer = s.part.tst.scrubTimer ∧ t.part.sin = s.part.sin) ∧
       t.part.scr = s.part.scr ∧ t.pending = s.pending) ∧
  (∀ (s : State) (tab : Table) (i : Nat) (mask : BitVec 64) (fields : List Int) (f : RxFrame),
     s.part.tst.current =
       some ⟨⟨.planner, .partialWrite tab i mask fields, .plannerWrite⟩, .normal, false⟩ →
     i < tab.entries → s.part.plp.inHand = some f → NoFrameWaits s →
     ((∃ w ∈ touchedWords tab mask, (s.mem.read (wordNumber tab i w)).judge = .uncorrectable) →
       ∃ t, exec .partialWriteDone s = .next t ∧ t.mem = s.mem ∧
         t.part.tst.poisoned = s.part.tst.poisoned ∧ t.part.tst.log = s.part.tst.log ∧
         TxFrame.answer f.tag .storeError [] ∈ t.part.plp.tx ∧ t.pending = s.pending) ∧
     ((∀ w ∈ touchedWords tab mask, (s.mem.read (wordNumber tab i w)).syndrome = 0) →
       let new := entryAfter tab mask (storedFields s tab i) fields
       mergedOk tab mask new = true →
       ∃ t, exec .partialWriteDone s = .next t ∧
         (∀ w ∈ touchedWords tab mask, t.mem.read (wordNumber tab i w) =
           generatedWord ((entryWords tab new).getD w 0)) ∧
         (∀ n, (∀ w ∈ touchedWords tab mask, n ≠ wordNumber tab i w) → t.mem.read n = s.mem.read n) ∧
         t.part.tst.poisoned = s.part.tst.poisoned ∧ t.part.tst.log = s.part.tst.log ∧
         (tab = .settings → CopiesHold t new ∧ BusCopiesHold t new ∧ ScrubStarted t (settingOf new 45)) ∧
         (tab ≠ .settings → CopiesKept s t ∧ t.part.dbm.responseLimit = s.part.dbm.responseLimit ∧
           t.part.dbm.holdLimit = s.part.dbm.holdLimit ∧ t.part.tst.scrubPeriod = s.part.tst.scrubPeriod ∧
           t.part.tst.scrubTimer = s.part.tst.scrubTimer) ∧
         TxFrame.answer f.tag .ok [] ∈ t.part.plp.tx ∧ t.pending = s.pending)) ∧
  (∀ s : State, NoFrameWaits s →
    let unusable := s.part.tst.poisoned.settings = true ∨
      ∃ w ∈ s.mem.readEntry .settings 0, w.judge = .uncorrectable
    let read := fun (v : List Int) (loaded : State → List Int → Prop) =>
      ∃ t, exec .entryReadDone s = .next t ∧ loaded t v ∧ t.mem = s.mem ∧ t.pending = s.pending
    let copies := fun (t : State) (v : List Int) => CopiesHold t v ∧
      t.part.dbm.responseLimit = s.part.dbm.responseLimit ∧ t.part.dbm.holdLimit = s.part.dbm.holdLimit ∧
      t.part.tst.scrubPeriod = s.part.tst.scrubPeriod ∧ t.part.tst.scrubTimer = s.part.tst.scrubTimer
    let scrub := fun (t : State) (v : List Int) => CopiesKept s t ∧ ScrubStarted t (settingOf v 45)
    (ReadGranted s .copies .settings 0 .ruleWalk →
      (Sound s .settings 0 → read (storedFields s .settings 0) copies) ∧
      (unusable → read (defaultFields .settings) copies)) ∧
    (ReadGranted s .scrubCopy .settings 0 .scrub →
      (Sound s .settings 0 → read (storedFields s .settings 0) scrub) ∧
      (unusable → read (defaultFields .settings) scrub)))

/-- A walk's rule read, by what it finds. A rule that does not match passes the walk to the next index, and one
that matches with SKIP_NEXT passes over the next; the walk goes on there with a read, or has reached the end of
the table. A rule that takes with action HALT, in a moving mode with no response active, halts the part with
stop cause HAZARD and that rule's index, its queue flushed, stopped, with no response left; one that takes with
action NONE ends the walk with no response. At the end of the table the walk ends with no response, but an
OUTSIDE walk ends with the built-in response, an unconditional HALT of level 15: in a moving mode it halts the
part with stop cause OUTSIDE_BUILTIN whatever response is active, and in another it is ignored. An uncorrectable
rule ends the walk with no response, of an OUTSIDE walk too, and takes the part to SAFE. Where the walk ends the
next one begins in the same event, with the zone and mode as they then stand (R13, R14, R139, R142 to R146,
R155). That a maneuver which returns to DOCKING with its attempts exhausted stops the part first is log 19. -/
def Obligations.RuleReadsGoOnOrEndTheWalk : Prop :=
  (∀ (s : State) (w : Walk) (i : Nat), ReadGranted s .walk .rule i .ruleWalk → Sound s .rule i →
    s.part.hre.walk = some w → w.index = i → ruleMatches (storedFields s .rule i) w = true →
    valueAt (storedFields s .rule i) 6 = 0 → valueAt (storedFields s .rule i) 9 = 4 →
    s.part.fcu.mode.moving = true → s.part.hre.active = none → NoFrameWaits s →
    ∃ t, exec .entryReadDone s = .next t ∧ t.part.fcu.mode = .halted ∧
      t.part.fcu.stopCause = .hazard i ∧ t.part.sq.queue = [] ∧ NoResponse t ∧ Stopped s t ∧
      t.mem = s.mem ∧ t.pending = s.pending) ∧
  (∀ (s : State) (w : Walk) (i : Nat), ReadGranted s .walk .rule i .ruleWalk → s.part.hre.walk = some w →
    w.index = i → NoFrameWaits s →
    let v := storedFields s .rule i
    let matched := ruleMatches v w = true
    let asks := fun j : Nat =>
      ∃ t, exec .entryReadDone s = .next t ∧
        t.part.hre = { s.part.hre with walk := some { w with index := j } } ∧
        AccessRequested t .walk (.entryRead .rule j) .ruleWalk ∧ t.part.fcu = s.part.fcu ∧
        t.part.nco = s.part.nco
    let ended := fun t : State =>
      (s.part.hre.queue = [] → t.part.hre.walk = none ∧ t.part.hre.queue = []) ∧
      ∀ r rest, s.part.hre.queue = r :: rest →
        t.part.hre.queue = rest ∧ t.part.hre.walk = some ⟨r, t.part.ltr.zone, t.part.fcu.mode, 0⟩ ∧
        AccessRequested t .walk (.entryRead .rule 0) .ruleWalk
    let quiet := fun t : State =>
      t.part.hre.active = s.part.hre.active ∧ t.part.hre.pending = s.part.hre.pending ∧
      t.part.fcu = s.part.fcu ∧ t.part.sq = s.part.sq ∧ t.part.rtu = s.part.rtu
    let noResponse := ∃ t, exec .entryReadDone s = .next t ∧ ended t ∧ quiet t ∧ t.part.nco = s.part.nco
    let atEnd :=
      (w.request.source ≠ .outside → noResponse) ∧
      (w.request.source = .outside → s.part.fcu.mode.moving = false →
        ∃ t, exec .entryReadDone s = .next t ∧ ended t ∧ quiet t) ∧
      (w.request.source = .outside → s.part.fcu.mode.moving = true →
        (s.part.fcu.resume = some .docking → s.part.rtu.attempts < s.part.rtu.params.retries) →
        ∃ t, exec .entryReadDone s = .next t ∧ ended t ∧ t.part.fcu.mode = .halted ∧
          t.part.fcu.stopCause = .outsideBuiltin ∧ t.part.fcu.hazardLevel = 0 ∧ t.part.sq.queue = [] ∧
          NoResponse t ∧ Stopped s t)
    (Sound s .rule i →
      (¬ matched → (i < 63 → asks (i + 1)) ∧ (i = 63 → atEnd)) ∧
      (matched → valueAt v 6 ≠ 0 → (i < 62 → asks (i + 2)) ∧ (62 ≤ i → atEnd)) ∧
      (matched → valueAt v 6 = 0 → valueAt v 9 = 6 → noResponse)) ∧
    ((∃ word ∈ s.mem.readEntry .rule i, word.judge = .uncorrectable) →
      ∃ t, exec .entryReadDone s = .next t ∧ ended t ∧ t.part.fcu.mode = .safe ∧
        (s.part.fcu.mode ≠ .safe →
          t.part.fcu.stopCause = .tableFault ∧ t.part.sq.queue = [] ∧ NoResponse t ∧ Stopped s t)))

/-- The response of a rule that a walk takes. In a mode that does not move, and for a HOME while homing or
docking, it is ignored. With none active it becomes active, its hold timer started: a PAUSE or BACK_TURN makes
the mode MANEUVER with the mode left as resume mode, a PAUSE stops the wheels, a BACK_TURN marks the active
segment for cutting, and a HOME goes HOMING with the queue flushed and ends at once; where no zone has been
known homing fails in the same event. The active response's own rule renews its timer, for SLOW, STOP_BLADE and
PAUSE, and changes nothing for the others. Another rule's is deferred to the pending slot while the deferral
test holds it off, or while its level is not above the active one's and it is not unconditional: it takes an
empty slot, or one of lower level, and is dropped else. Otherwise it becomes active in the other's place: the
mode returns from a maneuver unless another follows, and a BACK_TURN that ends cuts its marked segment; a return
to HOMING with no leg held and no zone ever known fails homing in the same event, and the part is HALTED with
HOME_FAILED. An active response stands behind every pending one (StepKeepsTheWriteTheSlotAndTheSettings). When
the deferral ends with the segment that held through, a pending response of higher level becomes active in that
event (R10 to R13, R80, R87, R145 to R148, R150 to R155, R163, R164, R167). A segment marked for cutting holds
through no more (log 33), and a stored spin side of no listed value is AWAY (log 13). -/
def Obligations.ResponsesAreDecidedByLevel : Prop :=
  (∀ (s : State) (w : Walk) (i : Nat) (action : Action), ReadGranted s .walk .rule i .ruleWalk →
    Sound s .rule i → s.part.hre.walk = some w → w.index = i →
    ruleMatches (storedFields s .rule i) w = true → valueAt (storedFields s .rule i) 6 = 0 →
    actionOf (valueAt (storedFields s .rule i) 9).toNat = some action → NoFrameWaits s →
    let r := responseOf (storedFields s .rule i) i w.request.source action
    let ignored := s.part.fcu.mode.moving = false ∨
      action = .home ∧ (s.part.fcu.homing = true ∨ s.part.fcu.docking = true)
    let timed := action = .slow ∨ action = .stopBlade
    let kept := fun t : State =>
      t.part.hre.active = s.part.hre.active ∧ t.part.hre.pending = s.part.hre.pending ∧
      t.part.fcu.mode = s.part.fcu.mode ∧ t.part.sq = s.part.sq ∧ t.part.rtu = s.part.rtu
    let becomes := fun (t : State) (mode : Mode) (resume : Option Resume) =>
      (∃ key, t.part.hre.active =
        some ⟨r, if action = .backTurn then none else some r.hold, false, 0, key⟩) ∧
      t.part.hre.pending = none ∧ t.part.fcu.hazardLevel = r.level ∧ t.part.fcu.mode = mode ∧
      t.part.fcu.resume = resume ∧ t.part.fcu.stopCause = s.part.fcu.stopCause ∧
      (action = .pause → t.part.msh.previousLeft = 0 ∧ t.part.msh.previousRight = 0 ∧
        ∀ n, n ≠ 2 → (s.part.node n).standing ≠ .lost → StopAsked t n)
    let marks := fun t : State => s.part.sq.active = true → ∀ g rest, s.part.sq.queue = g :: rest →
      t.part.sq.queue = (if action = .backTurn then { g with cut := true } else g) :: rest
    let home := fun t : State =>
      t.part.fcu.resume = none ∧ t.part.sq.queue = [] ∧ NoResponse t ∧ t.part.fcu.hazardLevel = 0 ∧
      t.part.fcu.permission = false ∧
      (s.part.ltr.startZone ≠ none →
        t.part.fcu.mode = .homing ∧ t.part.fcu.stopCause = s.part.fcu.stopCause) ∧
      (s.part.ltr.startZone = none → s.part.rtu.crossings = [] → s.part.rtu.applying = none →
        s.part.rtu.planning = none →
        t.part.fcu.mode = .halted ∧ t.part.fcu.stopCause = .homeFailed ∧ Stopped s t)
    (ignored → ∃ t, exec .entryReadDone s = .next t ∧ kept t) ∧
    (∀ left : Resume, s.part.hre.active = none → s.part.hre.pending = none →
      s.part.fcu.mode = left.mode → action = .pause ∨ action = .backTurn →
      ∃ t, exec .entryReadDone s = .next t ∧ becomes t .maneuver (some left) ∧ marks t) ∧
    (s.part.hre.active = none → s.part.hre.pending = none → s.part.fcu.mode = .run → action = .home →
      ∃ t, exec .entryReadDone s = .next t ∧ home t) ∧
    (¬ ignored → s.part.hre.active = none → timed →
      ∃ t key, exec .entryReadDone s = .next t ∧
        t.part.hre.active = some ⟨r, some r.hold, false, 0, key⟩ ∧
        t.part.hre.pending = s.part.hre.pending ∧ t.part.fcu.hazardLevel = r.level ∧
        t.part.fcu.mode = s.part.fcu.mode ∧ t.part.sq = s.part.sq) ∧
    (∀ a, ¬ ignored → s.part.hre.active = some a →
      let own := a.response.rule = some i
      let deferred := s.part.deferralTest = true ∧ r.unconditional = false ∧
        (action = .pause ∨ action = .backTurn ∨ action = .home)
      let rises := r.unconditional = true ∨ a.response.level < r.level
      (own → timed ∨ action = .pause →
        ∃ t, exec .entryReadDone s = .next t ∧ t.part.hre.active = some { a with timer := some r.hold } ∧
          t.part.hre.pending = s.part.hre.pending ∧ t.part.fcu.mode = s.part.fcu.mode ∧
          t.part.sq = s.part.sq) ∧
      (own → action = .backTurn ∨ action = .halt ∨ action = .home →
        ∃ t, exec .entryReadDone s = .next t ∧ kept t) ∧
      (¬ own → deferred ∨ ¬ rises →
        ∃ t, exec .entryReadDone s = .next t ∧ t.part.hre.active = some a ∧
          t.part.fcu.mode = s.part.fcu.mode ∧ t.part.sq = s.part.sq ∧
          (s.part.hre.pending = none → t.part.hre.pending = some r) ∧
          (∀ q, s.part.hre.pending = some q → q.level < r.level → t.part.hre.pending = some r) ∧
          (∀ q, s.part.hre.pending = some q → r.level ≤ q.level → t.part.hre.pending = some q)) ∧
      (¬ own → ¬ deferred → rises → timed →
        a.response.action = .slow ∨ a.response.action = .stopBlade →
        ∃ t key, exec .entryReadDone s = .next t ∧
          t.part.hre.active = some ⟨r, some r.hold, false, 0, key⟩ ∧
          t.part.hre.pending = s.part.hre.pending ∧ t.part.fcu.hazardLevel = r.level ∧
          t.part.fcu.mode = s.part.fcu.mode ∧ t.part.sq = s.part.sq) ∧
      (¬ own → ¬ deferred → rises → action = .backTurn → a.response.action = .pause →
        s.part.fcu.mode = .maneuver →
        (s.part.deferralTest = true → ∀ q, s.part.hre.pending = some q → q.level ≤ r.level) →
        ∃ t key, exec .entryReadDone s = .next t ∧
          t.part.hre.active = some ⟨r, none, false, 0, key⟩ ∧
          t.part.hre.pending = s.part.hre.pending ∧ t.part.fcu.mode = .maneuver ∧
          t.part.fcu.resume = s.part.fcu.resume) ∧
      (¬ own → ¬ deferred → rises → s.part.hre.pending = none →
        let light := a.response.action = .slow ∨ a.response.action = .stopBlade
        let maneuver := a.response.action = .pause ∨ a.response.action = .backTurn
        let turns := action = .pause ∨ action = .backTurn
        let cuts := fun t : State => a.response.action = .backTurn → s.part.sq.active = true →
          ∀ g h rest, s.part.sq.queue = g :: h :: rest → g.cut = true →
            (h.length ≠ 0 ∨ h.endCondition ≠ none) → (t.part.sq.queue.map (·.key)) = (h :: rest).map (·.key)
        (∀ left : Resume, light → turns → s.part.fcu.mode = left.mode →
          ∃ t, exec .entryReadDone s = .next t ∧ becomes t .maneuver (some left) ∧ marks t) ∧
        (light → action = .home → s.part.fcu.mode = .run →
          ∃ t, exec .entryReadDone s = .next t ∧ home t) ∧
        (∀ left : Resume, maneuver → s.part.fcu.mode = .maneuver → s.part.fcu.resume = some left →
          (left = .docking → s.part.rtu.attempts < s.part.rtu.params.retries) →
          (timed → (left = .homing → s.part.ltr.startZone ≠ none) →
            ∃ t, exec .entryReadDone s = .next t ∧ becomes t left.mode none ∧ cuts t ∧
            (a.response.action = .pause →
              t.part.sq.queue = s.part.sq.queue ∧ t.part.sq.active = s.part.sq.active)) ∧
          (timed → left = .homing → s.part.ltr.startZone = none → s.part.rtu.leg = none →
            s.part.rtu.crossings = [] → s.part.rtu.applying = none → s.part.rtu.planning = none →
            ∃ t, exec .entryReadDone s = .next t ∧ t.part.fcu.mode = .halted ∧
              t.part.fcu.stopCause = .homeFailed ∧ t.part.fcu.resume = none ∧ t.part.sq.queue = [] ∧
              t.part.fcu.hazardLevel = 0 ∧ NoResponse t ∧ Stopped s t) ∧
          (turns → ∃ t, exec .entryReadDone s = .next t ∧ becomes t .maneuver (some left) ∧ cuts t ∧
            (a.response.action = .pause → marks t)) ∧
          (action = .home → left = .run → ∃ t, exec .entryReadDone s = .next t ∧ home t)) ∧
        (action = .halt → light ∨ maneuver →
          (s.part.fcu.resume = some .docking → s.part.rtu.attempts < s.part.rtu.params.retries) →
          ∃ t, exec .entryReadDone s = .next t ∧ t.part.fcu.mode = .halted ∧
            t.part.fcu.stopCause = .hazard i ∧ t.part.sq.queue = [] ∧ NoResponse t ∧ Stopped s t)))) ∧
  (∀ (s : State) (tag : Byte) (a : Active) (r : Response) (g : Segment) (rest : List Segment),
    PortReady s → s.part.fcu.mode = .run → s.part.sq.active = true → s.part.sq.queue = g :: rest →
    g.holdThrough = true → g.cut = false → s.part.rtu.finalApproach = false → s.part.hre.active = some a →
    (a.response.action = .slow ∨ a.response.action = .stopBlade) → s.part.hre.pending = some r →
    (r.action = .pause ∨ r.action = .backTurn) → a.response.level < r.level →
    ∃ t, exec (.planFlush tag) s = .next t ∧ t.part.hre.active.map (·.response) = some r ∧
      t.part.hre.pending = none ∧ t.part.fcu.hazardLevel = r.level ∧ t.part.fcu.mode = .maneuver ∧
      t.part.fcu.resume = some .run ∧ t.part.sq.queue = [])

/-- The zone entry read by an evaluation in its scan is valid and its pattern matches: with the current zone
UNKNOWN and no other zone known before, that zone becomes the current and the last known zone, and its blade
maximum is handed over; where another zone is known, or was, a passage is looked up first. A valid passage that
joins the two zones makes the change a crossing, which reaches the Return Unit with the odometer; behind the
last passage the change is a stray, with its walk (R16, R63 to R67, R159; log 6). -/
def Obligations.MatchingZoneBecomesCurrent : Prop :=
  (∀ (s : State) (ev : ZoneEval) (i : Nat), ReadGranted s .zoneEval .zone i .zoneEval → Sound s .zone i →
     s.part.ltr.eval = some ev → ev.stage = .scan i → s.part.ltr.reevaluate = false →
     (zoneEntryOf (storedFields s .zone i)).valid = true →
     patternMatches (zoneEntryOf (storedFields s .zone i)) ev.states = true →
     s.part.ltr.zone = none → (s.part.ltr.lastZone = none ∨ s.part.ltr.lastZone = some i) →
     NoFrameWaits s →
     ∃ t, exec .entryReadDone s = .next t ∧ t.part.ltr.zone = some i ∧ t.part.ltr.lastZone = some i ∧
       t.part.ltr.eval = none ∧ t.part.ltr.tracks = s.part.ltr.tracks ∧
       t.part.fcu.zoneBladeMax = (zoneEntryOf (storedFields s .zone i)).bladeMax ∧ t.mem = s.mem ∧
       t.pending = s.pending) ∧
  (∀ (s : State) (ev : ZoneEval) (i z : Nat), ReadGranted s .zoneEval .zone i .zoneEval → Sound s .zone i →
     s.part.ltr.eval = some ev → ev.stage = .scan i →
     (zoneEntryOf (storedFields s .zone i)).valid = true →
     patternMatches (zoneEntryOf (storedFields s .zone i)) ev.states = true →
     (s.part.ltr.zone = some z ∨ s.part.ltr.zone = none ∧ s.part.ltr.lastZone = some z) → z ≠ i →
     NoFrameWaits s →
     ∃ t, exec .entryReadDone s = .next t ∧
       t.part.ltr.eval =
         some ⟨ev.states, .lookup ⟨i, (zoneEntryOf (storedFields s .zone i)).bladeMax, z⟩ 0⟩ ∧
       AccessRequested t .zoneEval (.entryRead .passage 0) .zoneEval ∧ t.part.ltr.zone = s.part.ltr.zone ∧
       t.part.ltr.lastZone = s.part.ltr.lastZone ∧ t.part.fcu = s.part.fcu ∧ t.mem = s.mem ∧
       t.pending = s.pending) ∧
  (∀ (s : State) (ev : ZoneEval) (c : ZoneChange) (i : Nat),
     ReadGranted s .zoneEval .passage i .zoneEval → Sound s .passage i → s.part.ltr.eval = some ev →
     ev.stage = .lookup c i → s.part.ltr.reevaluate = false → NoFrameWaits s →
     let e := passageEntryOf (storedFields s .passage i)
     let changed := fun t : State =>
       t.part.ltr.zone = some c.zone ∧ t.part.ltr.lastZone = some c.zone ∧ t.part.ltr.eval = none ∧
       t.part.ltr.tracks = s.part.ltr.tracks ∧ t.part.fcu.zoneBladeMax = c.bladeMax ∧ t.mem = s.mem ∧
       t.pending = s.pending
     let joined := e.valid = true ∧
       (e.zoneA = c.leaving ∧ e.zoneB = c.zone ∨ e.zoneA = c.zone ∧ e.zoneB = c.leaving)
     (joined → s.part.fcu.mode ≠ .docked →
       ∃ t, exec .entryReadDone s = .next t ∧ changed t ∧
         (⟨i, c.leaving, c.zone, s.part.msh.odometer⟩ ∈ t.part.rtu.crossings ∨
           t.part.rtu.applying.map (·.crossing) = some ⟨i, c.leaving, c.zone, s.part.msh.odometer⟩)) ∧
     (¬ joined → i < 31 →
       ∃ t, exec .entryReadDone s = .next t ∧
         t.part.ltr = { s.part.ltr with eval := some ⟨ev.states, .lookup c (i + 1)⟩ } ∧
         AccessRequested t .zoneEval (.entryRead .passage (i + 1)) .zoneEval) ∧
     (¬ joined → i = 31 →
       ∃ t, exec .entryReadDone s = .next t ∧ changed t ∧ WalkRequested t .stray c.zone c.zone))

/-- The read of the eighth loop code entry ends a coil frame's processing. Every loop's two readings are written
from its entry as read: absent for one not valid, its peak alone for a FOREIGN one, for an own one the verdict
with its side where FOUND, MISSING on both coils for one that could not be read. Every own loop's track takes
them as one frame: the sides debounced by the confirm count, the miss count and the loss by the loss limit, the
offset and its age, the combined state; a loop that is not valid or FOREIGN is untracked. The waiting frame
begins (R24, R35, R42, R43, R47 to R51, R54, R55, R69). That the readings of all loops are written in the event
of that last read is log 50. The peaks that the readings hold are those of VerdictFollowsThePeak. Each loop
whose combined state changes adds its LOOP_STATE entry, in index order; one that is lost requests a WIRE_LOST
walk, and a PERIMETER loop that is now OUT an OUTSIDE walk; without a change the rule engine and the notices
stay. A change begins a zone evaluation on the states as they then stand, holding the current zone where a loop
stands in a CROSS state, or marks the one in progress for another (R49, R52, R53, R62, R63). The offset is W ×
(pL + pR) / (2 × (|pL| + |pR|)), rounded to nearest, half away from zero, and clamped to the half spacing,
rounded down (R54). -/
def Obligations.FrameResultIsRecordedAndTracked : Prop :=
  (∀ (s : State) (f : CoilFrame) (seven : List LoopRead), ReadGranted s .correlator .loopCode 7 .correlator →
     Sound s .loopCode 7 → s.part.scr.processing = some ⟨f, seven⟩ → seven.length = 7 → NoFrameWaits s →
     let reads := seven ++ [LoopRead.entry (loopEntryOf (storedFields s .loopCode 7))]
     ∃ t, exec .entryReadDone s = .next t ∧ t.mem = s.mem ∧ t.pending = s.pending ∧
       (s.part.scr.waiting = none → t.part.scr.processing = none ∧
         t.part.scr.lastFrame = s.part.scr.lastFrame) ∧
       (∀ w, s.part.scr.waiting = some w → t.part.scr.processing = some ⟨w, []⟩ ∧
         t.part.scr.waiting = none ∧ t.part.scr.lastFrame = some w.number ∧
         AccessRequested t .correlator (.entryRead .loopCode 0) .correlator) ∧
       ∀ (i : Fin 8) (r : LoopRead), reads[i.val]? = some r →
         let rec2 := t.part.scr.readings.get i
         let old := s.part.ltr.tracks.get i
         let new := t.part.ltr.tracks.get i
         let own := fun e : LoopEntry => e.valid = true ∧ e.role ≠ .foreign
         let reading := fun (e : LoopEntry) (samples : List (BitVec 12)) =>
           let k := coilPeak e samples
           let verdict := verdictOf e k (foreignPeaks samples reads)
           ({ frame := f.number, role := some e.role, shift := some k.shift,
              peak := some (if e.inverted then -k.value else k.value), second := some k.second,
              verdict := some verdict,
              side :=
               if verdict = .found then
                 some (if 0 < (if e.inverted then -k.value else k.value) then .inside else .outside)
               else none } : Reading)
         let alone := fun (e : LoopEntry) (samples : List (BitVec 12)) =>
           ({ frame := f.number, role := some .foreign, shift := some (coilPeak e samples).shift,
              peak := some (coilPeak e samples).value, second := some (coilPeak e samples).second,
              verdict := none, side := none } : Reading)
         let missing : Reading :=
           { frame := f.number, role := none, shift := none, peak := none, second := none,
             verdict := some .missing, side := none }
         let found := fun x : Option Reading =>
           (x.filter fun y => y.verdict == some .found).bind (·.side)
         let seen := (found rec2.left).isSome ∨ (found rec2.right).isSome
         let coil := fun (was now : CoilSide) (x : Option Side) =>
           (x = none → now = was) ∧
           ∀ y, x = some y →
             let count := if was.candidate = some y then was.agree + 1 else 1
             (was.side = some y → now = { side := some y, candidate := none, agree := 0 }) ∧
             (was.side ≠ some y → new.confirm ≤ count →
               now = { side := some y, candidate := none, agree := 0 }) ∧
             (was.side ≠ some y → count < new.confirm →
               now = { side := was.side, candidate := some y, agree := count })
         let misses := min 255 (old.miss + 1)
         -- the readings
         (∀ e, r = .entry e → e.valid = false → rec2 = ⟨none, none⟩) ∧
         (∀ e, r = .entry e → e.valid = true → e.role = .foreign →
           rec2 = ⟨some (alone e f.left), some (alone e f.right)⟩) ∧
         (∀ e, r = .entry e → own e → rec2 = ⟨some (reading e f.left), some (reading e f.right)⟩) ∧
         (r = .unreadable → rec2 = ⟨some missing, some missing⟩) ∧
         -- the track
         (∀ e, r = .entry e → ¬ own e →
           new.tracked = false ∧ new.combined = .unseen ∧ new.offset = 0 ∧ new.age = 255) ∧
         (∀ e, r = .entry e → own e →
           new.role = some e.role ∧ new.confirm = e.confirm ∧ new.lossLimit = e.lossLimit) ∧
         (r = .unreadable →
           new.role = old.role ∧ new.confirm = old.confirm ∧ new.lossLimit = old.lossLimit) ∧
         ((r = .unreadable ∨ ∃ e, r = .entry e ∧ own e) →
           new.tracked = true ∧
           (seen → new.lost = false ∧ new.miss = 0 ∧
             coil old.left new.left (found rec2.left) ∧ coil old.right new.right (found rec2.right)) ∧
           (¬ seen → old.lost = true → new.lost = true ∧ new.miss = old.miss) ∧
           (¬ seen → old.lost = false → misses < new.lossLimit →
             new.lost = false ∧ new.miss = misses ∧ new.left = old.left ∧ new.right = old.right) ∧
           (¬ seen → old.lost = false → new.lossLimit ≤ misses →
             new.lost = true ∧ new.left.side = none ∧ new.left.candidate = none ∧
             new.right.side = none ∧ new.right.candidate = none) ∧
           ((found rec2.left).isSome ∧ (found rec2.right).isSome → new.age = 0 ∧
             new.offset = wireOffset s.part.ltr.spacing ((rec2.left.bind (·.peak)).getD 0)
               ((rec2.right.bind (·.peak)).getD 0)) ∧
           (¬ ((found rec2.left).isSome ∧ (found rec2.right).isSome) →
             new.age = min 255 (old.age + 1) ∧ new.offset = old.offset) ∧
           new.combined =
             (if new.lost then .lost
              else match new.left.side, new.right.side with
               | none, none => .unseen
               | none, some .inside | some .inside, none | some .inside, some .inside => .inside
               | none, some .outside | some .outside, none | some .outside, some .outside => .outside
               | some .inside, some .outside => .crossLR
               | some .outside, some .inside => .crossRL) ∧
           (new.combined ≠ old.combined → new.previous = old.combined) ∧
           (new.combined = old.combined → new.previous = old.previous))) ∧
  (∀ (s : State) (f : CoilFrame) (seven : List LoopRead) (t : State),
    ReadGranted s .correlator .loopCode 7 .correlator → Sound s .loopCode 7 →
    s.part.scr.processing = some ⟨f, seven⟩ → seven.length = 7 → NoFrameWaits s →
    exec .entryReadDone s = .next t →
    let old := fun i => s.part.ltr.tracks.get i
    let now := fun i => t.part.ltr.tracks.get i
    let changed := fun i : Fin 8 => (now i).combined ≠ (old i).combined
    let crossed := ∃ i : Fin 8, (now i).combined = .crossLR ∨ (now i).combined = .crossRL
    let states : Eight Combined := t.part.ltr.tracks.map (·.combined)
    -- what the change of a loop hands out
    (∀ i, changed i → (old i).lost = false → (now i).lost = true →
      WalkRequested t .wireLost i.val i.val) ∧
    (∀ i, changed i → (now i).tracked = true → (now i).role = some .perimeter →
      (now i).combined = .outside → WalkRequested t .outside i.val 1) ∧
    (s.part.sq.active = false → s.part.hre.pending = none →
      EntriesAdded s t (loopIndices.filterMap fun i =>
        if (now i).combined = (old i).combined then none
        else some (.loopState, i.val,
          (now i).combined.code + 256 * (old i).combined.code + 65536 * f.number.toNat))) ∧
    ((∀ i, ¬ changed i) → t.part.hre = s.part.hre ∧ t.part.nco = s.part.nco ∧
      t.part.ltr.eval = s.part.ltr.eval ∧ t.part.ltr.reevaluate = s.part.ltr.reevaluate) ∧
    -- the zone evaluation
    (∀ ev, (∃ i, changed i) → s.part.ltr.eval = some ev →
      t.part.ltr.eval = some ev ∧ t.part.ltr.reevaluate = true) ∧
    ((∃ i, changed i) → s.part.ltr.eval = none →
      t.part.ltr.reevaluate = s.part.ltr.reevaluate ∧
      (¬ crossed → t.part.ltr.eval = some ⟨states, .scan 0⟩ ∧
        AccessRequested t .zoneEval (.entryRead .zone 0) .zoneEval) ∧
      (∀ z, crossed → s.part.ltr.zone = some z → t.part.ltr.eval = some ⟨states, .held z⟩ ∧
        AccessRequested t .zoneEval (.entryRead .zone z) .zoneEval) ∧
      (crossed → s.part.ltr.zone = none → t.part.ltr.eval = none))) ∧
  (∀ (spacing : Nat) (pL pR : Int), pL ≠ 0 ∨ pR ≠ 0 →
    let n : Int := spacing * (pL + pR)
    let d : Int := 2 * (pL.natAbs + pR.natAbs)
    let half : Int := (spacing / 2 : Nat)
    ∃ r : Int, 2 * (d * r - n).natAbs ≤ d ∧ (2 * (d * r - n).natAbs = d → n.natAbs ≤ (d * r).natAbs) ∧
      wireOffset spacing pL pR = max (-half) (min half r))

/-- Leg planning, read by read. In the dock zone it ends in DOCKING. Else the stack's top entry, where it led
into the start zone, names the passage and the target; else the start zone's home link does, followed only to a
zone of lower home rank. A passage that joins the zones makes the leg, with its fields copied; whatever cannot
be used ends homing with HOME_FAILED. A crossing that arrives meanwhile waits in the list (R12, R163 to R165). -/
def Obligations.LegPlanningChoosesALeg : Prop :=
  ∀ (s : State) (pl : Planning) (tab : Table) (i : Nat), ReadGranted s .planning tab i .returning →
    s.part.rtu.planning = some pl → s.part.fcu.mode = .homing → s.part.hre.active = none →
    s.part.rtu.planDue = false → NoFrameWaits s →
    let v := storedFields s tab i
    let zone := zoneEntryOf v
    let e := passageEntryOf v
    let fails := ∃ t, exec .entryReadDone s = .next t ∧ t.part.fcu.mode = .halted ∧
      t.part.fcu.stopCause = .homeFailed ∧ t.part.rtu.leg = none ∧ t.part.rtu.planning = none ∧ Stopped s t
    let asks := fun (stage : PlanStage) (tab' : Table) (i' : Nat) =>
      ∃ t, exec .entryReadDone s = .next t ∧ t.part.rtu =
          { s.part.rtu with planning := some ⟨pl.start, stage⟩ } ∧
        AccessRequested t .planning (.entryRead tab' i') .returning ∧ t.part.fcu = s.part.fcu
    let leads := fun (search index target : Nat) (x : PassageEntry) =>
      ∃ t key, exec .entryReadDone s = .next t ∧ t.part.rtu.planning = none ∧
        t.part.rtu.leg = some
          { key := key, passage := index, start := pl.start, target := target, guideLoop := x.guideLoop
            interior := x.interior, offset := x.target, speed := x.speed, holdThrough := x.holdThrough
            follow := s.part.ltr.crossAt x.guideLoop, distance := 0, search := search } ∧
        t.part.rtu.stack = s.part.rtu.stack ∧ t.part.fcu.mode = .homing
    (Sound s tab i →
      (pl.stage = .settings → tab = .settings →
        (settingOf v 22 = pl.start →
          ∃ t, exec .entryReadDone s = .next t ∧ t.part.fcu.mode = .docking ∧
            t.part.rtu.activity = .approach ∧ t.part.rtu.attempts = 0 ∧ t.part.rtu.planning = none ∧
            t.part.rtu.leg = none ∧ t.part.fcu.stopCause = s.part.fcu.stopCause) ∧
        (settingOf v 22 ≠ pl.start →
          (∀ top rest, s.part.rtu.stack = top :: rest → top.entering = pl.start →
            asks (.passage (settingOf v 26) top.passage (.stack top.leaving)) .passage top.passage) ∧
          ((∀ top rest, s.part.rtu.stack = top :: rest → top.entering ≠ pl.start) →
            asks (.startZone (settingOf v 26)) .zone pl.start))) ∧
      (∀ search, pl.stage = .startZone search → tab = .zone →
        (∀ link, zone.valid = true → zone.homeLink = some link →
          asks (.passage search link (.link zone.rank)) .passage link) ∧
        (zone.valid = false ∨ zone.homeLink = none → fails)) ∧
      (∀ search index target, pl.stage = .passage search index (.stack target) → tab = .passage →
        let joins := e.valid = true ∧
          (e.zoneA = pl.start ∧ e.zoneB = target ∨ e.zoneA = target ∧ e.zoneB = pl.start)
        (joins → leads search index target e) ∧ (¬ joins → fails)) ∧
      (∀ search index rank, pl.stage = .passage search index (.link rank) → tab = .passage →
        (∀ target, e.valid = true → target < 24 →
          (e.zoneA = pl.start ∧ e.zoneB = target ∨
            e.zoneA ≠ pl.start ∧ e.zoneB = pl.start ∧ e.zoneA = target) →
          asks (.targetZone search index e target rank) .zone target) ∧
        (e.valid = false ∨ e.zoneA ≠ pl.start ∧ e.zoneB ≠ pl.start → fails)) ∧
      (∀ search index x target rank, pl.stage = .targetZone search index x target rank → tab = .zone →
        (zone.valid = true → zone.rank < rank → leads search index target x) ∧
        (zone.valid = false ∨ rank ≤ zone.rank → fails))) ∧
    (s.part.tst.poisoned.get tab i = true → pl.stage ≠ .settings → fails)

/-! ### Invariants -/

/-- Every step keeps the canonical form of the table memory (R174; the form is the model's own, log 12). -/
def Obligations.StepKeepsTheMemoryCanonical : Prop :=
  ∀ s t, MemoryCanonical s → step s = .next t → MemoryCanonical t

/-- The table memory has its canonical form at reset, nothing of an event is left to be done, the lists are
within their places, the error log is consistent, no write of an arm and no response is waiting for another, no
period computation is in progress, and no arbiter has an answer that is not taken. -/
def Obligations.ResetIsCanonicalAndQuiet : Prop :=
  MemoryCanonical State.reset ∧ Quiet State.reset ∧ ReceiveBounded State.reset ∧
    RouteBounded State.reset ∧ QueueBounded State.reset ∧ NoticesBounded State.reset ∧
    LogConsistent State.reset ∧ WriteHasTheBus State.reset ∧ PendingBehindActive State.reset ∧
    ComputationWithinSettings State.reset ∧ ArbitersServed State.reset

/-- Every step leaves nothing of an event to be done (log 4). -/
def Obligations.StepLeavesNothingOfAnEvent : Prop :=
  ∀ s t, Quiet s → step s = .next t → Quiet t

/-- Every step keeps the receive buffer within its 4 places (R192), the home-path stack within 16 entries and
the crossing list within 4 (R159, R161), the segment queue within 32 records, with the segments of a PLAN_APPEND
in hand (R72, R74), and each class's buffer within 12 entries (R197). -/
def Obligations.StepKeepsTheListsBounded : Prop :=
  ∀ s t, ReceiveBounded s → RouteBounded s → QueueBounded s → NoticesBounded s → step s = .next t →
    ReceiveBounded t ∧ RouteBounded t ∧ QueueBounded t ∧ NoticesBounded t

/-- Every step keeps the error log consistent: while its uncorrectable flag is set, the location it holds
describes an uncorrectable error (R187). -/
def Obligations.StepKeepsTheLogConsistent : Prop :=
  ∀ s t, LogConsistent s → step s = .next t → LogConsistent t

/-- Every step keeps the bus with the write of an arm: while the interlock is WRITING, the BLADE_RUN is in hand,
and the bus is reserved for it or carries it (R111, R128, R129). Every step keeps the pending slot empty while
no response is active (R146). Every step keeps a period computation with exactly the one read that its stage
waits for, and its settings values within the bits of their fields (R90, R174). -/
def Obligations.StepKeepsTheWriteTheSlotAndTheSettings : Prop :=
  (∀ s t, WriteHasTheBus s → step s = .next t → WriteHasTheBus t) ∧
  (∀ s t, PendingBehindActive s → step s = .next t → PendingBehindActive t) ∧
  (∀ s t, ComputationWithinSettings s → step s = .next t → ComputationWithinSettings t)

/-! ### Encodings and computations -/

/-- The words of an entry give back its field values: for every table, any values that lie within the bits of
their fields come back from the words they are packed into (R174). For a rule this holds under the layout of its
own action. -/
def Obligations.PackedEntriesReadBack : Prop :=
  ∀ (tab : Table) (values : List Int), values.length = tab.positions →
    (∀ p f, (layout tab (valueAt values 9).toNat)[p]? = some f →
      f.low ≤ valueAt values p ∧ valueAt values p < f.low + 2 ^ f.width) →
    entryFields tab (entryWords tab values) = values

/-- A word with generated check bits is judged clean; with one of its 39 bits flipped it is a single error,
corrected to the stored data; with two flipped it is uncorrectable (R176). -/
def Obligations.CheckBitsCorrectOneAndDetectTwo : Prop :=
  ∀ data : BitVec 32,
    (generatedWord data).judge = .clean data ∧
    (∀ d, d < 32 → (StoredWord.mk (data ^^^ BitVec.twoPow 32 d) (generateCheck data)).judge =
      .single data) ∧
    (∀ c, c < 7 → (StoredWord.mk data (generateCheck data ^^^ BitVec.twoPow 7 c)).judge =
      .single data) ∧
    (∀ d e, d < e → e < 32 →
      (StoredWord.mk (data ^^^ BitVec.twoPow 32 d ^^^ BitVec.twoPow 32 e) (generateCheck data)).judge =
        .uncorrectable) ∧
    (∀ d c, d < 32 → c < 7 →
      (StoredWord.mk (data ^^^ BitVec.twoPow 32 d) (generateCheck data ^^^ BitVec.twoPow 7 c)).judge =
        .uncorrectable) ∧
    (∀ b c, b < c → c < 7 →
      (StoredWord.mk data (generateCheck data ^^^ BitVec.twoPow 7 b ^^^ BitVec.twoPow 7 c)).judge =
        .uncorrectable)

/-- Shift, clamp and ramp. Targets within the effective cap stay as they are; where the larger one, the left in
a tie, exceeds it, both move by its excess, toward zero for that wheel, and are then clamped. The ramp moves
from the previous setpoint by at most the accel step, and is clamped again, so that no setpoint leaves the cap
(R100, R101). -/
def Obligations.SetpointsKeepTheCapAndTheStep : Prop :=
  ∀ (cap step previous left right : Int), 0 ≤ cap → 0 ≤ step →
    let t := shiftClamp cap (left, right)
    let out := ramp cap step previous t.1
    let lead := if left.natAbs < right.natAbs then right else left
    let excess := (lead.natAbs : Int) - cap
    let move := if 0 < lead then -excess else excess
    ((lead.natAbs : Int) ≤ cap → t = (left, right)) ∧
    (cap < (lead.natAbs : Int) →
      t = (max (-cap) (min cap (left + move)), max (-cap) (min cap (right + move)))) ∧
    (previous + step < t.1 → out = max (-cap) (min cap (previous + step))) ∧
    (t.1 < previous - step → out = max (-cap) (min cap (previous - step))) ∧
    (previous - step ≤ t.1 → t.1 ≤ previous + step → out = t.1) ∧
    (-cap ≤ t.1 ∧ t.1 ≤ cap ∧ -cap ≤ t.2 ∧ t.2 ≤ cap ∧ -cap ≤ out ∧ out ≤ cap) ∧
    (-cap ≤ previous → previous ≤ cap → previous - step ≤ out ∧ out ≤ previous + step)

/-- What a crossing does to the home-path stack by the ranks of the two zones: away from the dock it is pushed;
toward it, it pops an entry that led into the zone left and changes nothing else; between equal ranks it pops
its exact reversal and is pushed otherwise. A push onto a full stack loses the bottom entry; that loss sets the
overflow flag, with one STACK_OVERFLOW entry while it was clear, and nothing else does (R160, R161). An
application reads the zone entry of the zone left, then that of the zone entered (log 54), for which it asks
also where the first cannot be used (log 20). Behind the second the stack is changed, but not where an entry was
invalid, poisoned or uncorrectable, nor in DOCKED, and the next crossing begins its application in the same
event, where no leg is planned; with a leg planned it waits (R159, R163). A crossing found by the lookup joins
the tail of the list, and on a full list the oldest is lost, as for the stack; its STACK_OVERFLOW entry stands
behind the ZONE_CHANGED and before the CROSSING entry (log 53); in DOCKED it is discarded (R159, R161). -/
def Obligations.StackFollowsTheRanks : Prop :=
  (∀ (c : Crossing) (r1 r2 : Nat) (p : Part),
    let after := (p.applyCrossing c r1 r2).rtu.stack
    let pushed := if p.rtu.stack.length < 16 then c :: p.rtu.stack else c :: p.rtu.stack.dropLast
    (r1 < r2 → after = pushed) ∧
    (∀ top rest, p.rtu.stack = top :: rest →
      (r2 < r1 → top.entering = c.leaving → after = rest) ∧
      (r2 < r1 → top.entering ≠ c.leaving → after = p.rtu.stack) ∧
      (r1 = r2 → top.entering = c.leaving → top.leaving = c.entering → after = rest) ∧
      (r1 = r2 → ¬ (top.entering = c.leaving ∧ top.leaving = c.entering) → after = pushed)) ∧
    (p.rtu.stack = [] → (r2 < r1 → after = []) ∧ (r1 = r2 → after = pushed))) ∧
  (∀ (c : Crossing) (r1 r2 : Nat) (p : Part),
    let after := p.applyCrossing c r1 r2
    let reverses := ∃ top, p.rtu.stack.head? = some top ∧ top.entering = c.leaving ∧ top.leaving = c.entering
    let pushes := r1 < r2 ∨ r1 = r2 ∧ ¬ reverses
    let silent := after.nco = p.nco ∧ after.plp = p.plp
    (¬ pushes ∨ p.rtu.stack.length < 16 → after.rtu.overflow = p.rtu.overflow ∧ silent) ∧
    (∀ bottom, pushes → 16 ≤ p.rtu.stack.length → p.rtu.stack.getLast? = some bottom →
      after.rtu.overflow = true ∧ (p.rtu.overflow = true → silent) ∧
      (p.rtu.overflow = false →
        let told := p.addEntry .stackOverflow bottom.passage (bottom.odometer.toNat % 2147483648)
        after.nco = told.nco ∧ after.plp = told.plp))) ∧
  (∀ (s : State) (c : Crossing) (stage : ApplyStage) (i : Nat), ReadGranted s .crossing .zone i .returning →
    s.part.rtu.applying = some ⟨c, stage⟩ → NoFrameWaits s →
    let e := zoneEntryOf (storedFields s .zone i)
    let rank := fun r : Option Nat =>
      (Sound s .zone i → r = if e.valid = true then some e.rank else none) ∧
      (s.part.tst.poisoned.get .zone i = true ∨ (∃ w ∈ s.mem.readEntry .zone i, w.judge = .uncorrectable) →
        r = none)
    let sound := Sound s .zone i
    let known := sound ∨ s.part.tst.poisoned.get .zone i = true ∨
      ∃ w ∈ s.mem.readEntry .zone i, w.judge = .uncorrectable
    -- the zone left
    (stage = .leaving → i = c.leaving → known →
      ∃ t r, exec .entryReadDone s = .next t ∧ rank r ∧
        t.part.rtu = { s.part.rtu with applying := some ⟨c, .entering r⟩ } ∧
        AccessRequested t .crossing (.entryRead .zone c.entering) .returning ∧ t.mem = s.mem ∧
        t.pending = s.pending) ∧
    -- the zone entered
    (∀ r1, stage = .entering r1 → i = c.entering → known →
      ∃ t r2, exec .entryReadDone s = .next t ∧ rank r2 ∧ t.mem = s.mem ∧ t.pending = s.pending ∧
        (∀ n1 n2, r1 = some n1 → r2 = some n2 → s.part.fcu.mode ≠ .docked →
          let applied := s.part.applyCrossing c n1 n2
          t.part.rtu.stack = applied.rtu.stack ∧ t.part.rtu.overflow = applied.rtu.overflow ∧
          (s.part.rtu.planDue = false → t.part.nco = applied.nco ∧
            ∀ k, noticesOf k t.part.plp.tx = noticesOf k applied.plp.tx)) ∧
        (r1 = none ∨ r2 = none ∨ s.part.fcu.mode = .docked →
          t.part.rtu.stack = s.part.rtu.stack ∧ t.part.rtu.overflow = s.part.rtu.overflow) ∧
        (s.part.rtu.crossings = [] ∨ s.part.rtu.planning ≠ none →
          t.part.rtu.applying = none ∧ t.part.rtu.crossings = s.part.rtu.crossings) ∧
        (∀ c' rest, s.part.rtu.planning = none → s.part.rtu.crossings = c' :: rest →
          t.part.rtu.applying = some ⟨c', .leaving⟩ ∧ t.part.rtu.crossings = rest ∧
          AccessRequested t .crossing (.entryRead .zone c'.leaving) .returning))) ∧
  (∀ (s : State) (ev : ZoneEval) (z : ZoneChange) (i : Nat),
    ReadGranted s .zoneEval .passage i .zoneEval → Sound s .passage i → s.part.ltr.eval = some ev →
    ev.stage = .lookup z i → s.part.sq.active = false → NoFrameWaits s →
    (s.part.rtu.applying ≠ none ∨ s.part.rtu.planning ≠ none) →
    let e := passageEntryOf (storedFields s .passage i)
    e.valid = true → (e.zoneA = z.leaving ∧ e.zoneB = z.zone ∨ e.zoneA = z.zone ∧ e.zoneB = z.leaving) →
    let c : Crossing := ⟨i, z.leaving, z.zone, s.part.msh.odometer⟩
    let left : EntryKind × Nat × Nat := (.zoneChanged, z.zone, zoneCode s.part.ltr.zone)
    let crossed : EntryKind × Nat × Nat := (.crossing, i, z.leaving + 256 * z.zone)
    let reaches := fun (crossings : List Crossing) (overflow : Bool) (entries : List (EntryKind × Nat × Nat)) =>
      ∃ t, exec .entryReadDone s = .next t ∧
        t.part.rtu = { s.part.rtu with crossings := crossings, overflow := overflow } ∧
        EntriesAdded s t (left :: (entries ++ [crossed]))
    (s.part.fcu.mode = .docked → reaches s.part.rtu.crossings s.part.rtu.overflow []) ∧
    (s.part.fcu.mode ≠ .docked → s.part.rtu.crossings.length < 4 →
      reaches (s.part.rtu.crossings ++ [c]) s.part.rtu.overflow []) ∧
    (∀ oldest rest, s.part.fcu.mode ≠ .docked → s.part.rtu.crossings = oldest :: rest → 3 ≤ rest.length →
      (s.part.rtu.overflow = true → reaches (rest ++ [c]) true []) ∧
      (s.part.rtu.overflow = false →
        reaches (rest ++ [c]) true
          [(.stackOverflow, oldest.passage, oldest.odometer.toNat % 2147483648)])))

/-- A pattern matches the loop states when every loop accepts its value: ANY every state, MUST_IN the state IN,
MUST_OUT the states OUT, UNSEEN and LOST (R64). -/
def Obligations.PatternMatchesEveryLoop : Prop :=
  ∀ (e : ZoneEntry) (states : Eight Combined), (∀ k, k < 8 → e.patternAt k ≤ 2) →
    (patternMatches e states = true ↔
      ∀ i : Fin 8, e.patternAt i.val = 0 ∨
        (e.patternAt i.val = 1 ∧ states.get i = .inside) ∨
        (e.patternAt i.val = 2 ∧
          (states.get i = .outside ∨ states.get i = .unseen ∨ states.get i = .lost)))

/-- The verdict on an own loop's peak P with its second peak Q: MISSING below the min strength; else CONTESTED
by a strictly larger FOREIGN peak; else WEAK where 8 × |P| < R × Q; else FOUND, with the side IN for a positive
and OUT for a negative polarity-corrected peak, which is −P for INVERTED polarity (R34, R36 to R39). The sum at
shift s adds, for each i, sample i times chip (i + s) mod 32, a set bit standing for −1; the peak of a loop on a
coil is the sum of the largest magnitude, at the smallest shift of that magnitude, and the second peak the
largest magnitude at another shift. The FOREIGN peaks of a coil are those of the entries read as valid FOREIGN
(R31 to R33, R37, R40). -/
def Obligations.VerdictFollowsThePeak : Prop :=
  (∀ (e : LoopEntry) (k : Peak) (foreign : List Nat),
    (verdictOf e k foreign = .missing ↔ k.value.natAbs < e.minStrength) ∧
    (verdictOf e k foreign = .contested ↔
      ¬ k.value.natAbs < e.minStrength ∧ ∃ f ∈ foreign, k.value.natAbs < f) ∧
    (verdictOf e k foreign = .weak ↔
      ¬ k.value.natAbs < e.minStrength ∧ (∀ f ∈ foreign, f ≤ k.value.natAbs) ∧
        8 * k.value.natAbs < e.peakRatio * k.second) ∧
    (verdictOf e k foreign = .found ↔
      e.minStrength ≤ k.value.natAbs ∧ (∀ f ∈ foreign, f ≤ k.value.natAbs) ∧
        e.peakRatio * k.second ≤ 8 * k.value.natAbs) ∧
    correctedPeak e k.value = (if e.inverted = true then -k.value else k.value) ∧
    (0 < correctedPeak e k.value → sideOf (correctedPeak e k.value) = .inside) ∧
    (correctedPeak e k.value < 0 → sideOf (correctedPeak e k.value) = .outside)) ∧
  (∀ (code : BitVec 32) (samples : List (BitVec 12)) (s : Nat),
    correlation code samples s =
      ((List.range samples.length).map fun i =>
        (if code.getLsbD ((i + s) % 32) = true then -1 else 1) * (samples.getD i 0).toInt).sum) ∧
  (∀ (e : LoopEntry) (samples : List (BitVec 12)),
    let sum := correlation e.code samples
    let k := coilPeak e samples
    k.shift < 32 ∧ k.value = sum k.shift ∧ (∀ s < 32, (sum s).natAbs ≤ k.value.natAbs) ∧
    (∀ s < k.shift, (sum s).natAbs < k.value.natAbs) ∧
    (∀ s < 32, s ≠ k.shift → (sum s).natAbs ≤ k.second) ∧
    (∃ s < 32, s ≠ k.shift ∧ k.second = (sum s).natAbs)) ∧
  (∀ (samples : List (BitVec 12)) (reads : List LoopRead) (f : Nat),
    f ∈ foreignPeaks samples reads ↔
      ∃ e, .entry e ∈ reads ∧ e.valid = true ∧ e.role = .foreign ∧ f = (coilPeak e samples).value.natAbs)

/-- A walk request joins the walk queue: a waiting request of its pair takes the new value in place, so that no
pair waits twice; else it joins the tail (R139). -/
def Obligations.WalkQueueHoldsAPairOnce : Prop :=
  ∀ (r : WalkRequest) (l : List WalkRequest),
    let pairs := fun l : List WalkRequest => l.map fun q => (q.source, q.subject)
    ((r.source, r.subject) ∉ pairs l → joinWalkQueue r l = l ++ [r]) ∧
    ((r.source, r.subject) ∈ pairs l → pairs (joinWalkQueue r l) = pairs l) ∧
    ((pairs l).Nodup →
      (pairs (joinWalkQueue r l)).Nodup ∧ r ∈ joinWalkQueue r l ∧
      ∀ q ∈ l, (q.source, q.subject) ≠ (r.source, r.subject) → q ∈ joinWalkQueue r l)

/-- The two arbiters. On a free bus the drive bus grants an offer that no offer of a lower class, or of its
class and a lower node, stands before, among those that may be granted: until the three stops of a reset have
ended, only those stops and the report grants. It grants none only where nothing that may be granted is offered.
On a reserved bus it grants the write of the arm and nothing else, on a busy one nothing. The store grants a
request of the lowest class among those that wait, and of that class the one that has waited longest, and none
only where none waits (R125, R126, R128, R132, R177). Every step keeps that no arbiter has an answer that is not
taken: a free store leaves no request waiting, the bus is granted where it can be, and with no walk in progress
the walk queue is empty (R126, R139, R177). A scrub access that ends with a sound word gives the store to the
request that is next, and a silent try that is not the last gives the bus to the offer that is next, the same
exchange among them (R115, R125, R126, R177, R189). -/
def Obligations.ArbitersGrantInOrder : Prop :=
  (∀ (d : Dbm) (c : Nat) (n : Fin 3), d.bus = .free → d.grantable = some (c, n) →
    d.offers n c = true ∧
    ((∃ m, d.resetStops.get m = true) → c = 3 ∨ c = 2 ∧ d.resetStops.get n = true) ∧
    ∀ c' n', (c', n') ∈ grantOrder → d.offers n' c' = true →
      ((∃ m, d.resetStops.get m = true) → c' = 3 ∨ c' = 2 ∧ d.resetStops.get n' = true) →
      c < c' ∨ (c = c' ∧ n ≤ n')) ∧
  (∀ (d : Dbm) (c : Nat) (n : Fin 3), d.bus = .free → d.grantable = none → (c, n) ∈ grantOrder →
    d.offers n c = true →
    (∃ m, d.resetStops.get m = true) ∧ c ≠ 3 ∧ ¬ (c = 2 ∧ d.resetStops.get n = true)) ∧
  (∀ d : Dbm, d.bus = .reserved →
    (d.offers 2 1 = true → d.grantable = some (1, 2)) ∧ (d.offers 2 1 = false → d.grantable = none)) ∧
  (∀ (d : Dbm) (n : Fin 3) (grant : Bool) (number : Byte) (left : Nat),
    d.bus = .wire n grant number left → d.grantable = none) ∧
  (∀ (l : List Request) (q : Request), nextRequest l = some q →
    ∃ before behind, l = before ++ q :: behind ∧ (∀ r ∈ before, q.grantClass < r.grantClass) ∧
      ∀ r ∈ behind, q.grantClass ≤ r.grantClass) ∧
  (∀ l : List Request, nextRequest l = none → l = []) ∧
  (∀ s t, ArbitersServed s → step s = .next t → ArbitersServed t) ∧
  (∀ (s : State) (n : Nat) (m : StoreMode) (discard : Bool) (q : Request),
    s.part.tst.current = some ⟨⟨.scrub, .scrub n, .scrub⟩, m, discard⟩ → n < 366 →
    (s.mem.read n).syndrome = 0 → nextRequest s.part.tst.waiting = some q →
    q.modeRefused s.part.fcu.mode = false → q.scrubWithdrawn s.part.tst.mode = false →
    ∃ t, exec .scrubAccessDone s = .next t ∧ t.part.tst.current = some ⟨q, s.part.tst.mode, false⟩ ∧
      t.part.tst.waiting = s.part.tst.waiting.erase q) ∧
  (∀ (s : State) (n : Fin 3) (number : Byte) (left : Nat) (e : Exchange) (c : Nat) (n' : Fin 3),
    s.part.dbm.bus = .wire n false number left → (s.part.node n).inHand = some e → e.tries < 3 →
    (s.part.node n).superseded = false → s.part.dbm.interlock ≠ .writing →
    { s.part.dbm with
      bus := .free
      nodes := s.part.dbm.nodes.set n
        { s.part.node n with inHand := some { e with tries := e.tries + 1 } } }.grantable = some (c, n') →
    ∃ t, exec .responseTimeout s = .next t ∧
      t.part.dbm.bus = .wire n' (c == 3) (s.part.dbm.number + 1) s.part.dbm.responseLimit ∧
      t.part.dbm.number = s.part.dbm.number + 1)

/-- Blade permission is yes exactly when the mode is RUN, or MANEUVER with resume mode RUN; the active segment's
blade level is above 0; the current zone is known, not poisoned, with a blade maximum of at least 1; and no
active response is a STOP_BLADE, a HALT or unconditional (R16). -/
def Obligations.BladePermissionConditions : Prop :=
  ∀ p : Part, p.bladePermitted = true ↔
    (p.fcu.mode = .run ∨ (p.fcu.mode = .maneuver ∧ p.fcu.resume = some .run)) ∧
    (∃ g rest, p.sq.active = true ∧ p.sq.queue = g :: rest ∧ 0 < g.bladeLevel) ∧
    (∃ z, p.ltr.zone = some z ∧ p.tst.poisoned.get .zone z = false ∧ 1 ≤ p.fcu.zoneBladeMax) ∧
    (∀ a, p.hre.active = some a →
      a.response.action ≠ .stopBlade ∧ a.response.action ≠ .halt ∧ a.response.unconditional = false)

end
end

