-- ==== Sys2Proof/Laws/Arbiters.lean ====
section
/-! SUPPORT. What the three arbiters leave: none of them has an answer that is not taken (R126, R139, R177). -/

namespace Sys2Proof.Laws

open Machine

/-! ### The table store's arbiter (R177) -/

/-- Wherever a request waits, one of those that wait is next. -/
theorem nextRequest_cons (q : Request) (l : List Request) : ∃ r ∈ q :: l, nextRequest (q :: l) = some r := by
  induction l generalizing q with
  | nil => exact ⟨q, List.mem_singleton.mpr rfl, rfl⟩
  | cons a as ih =>
    obtain ⟨r, hr, h⟩ := ih a
    by_cases lower : r.grantClass < q.grantClass
    · exact ⟨r, List.mem_cons_of_mem _ hr, by rw [nextRequest, h]; exact if_pos lower⟩
    · exact ⟨q, List.mem_cons_self, by rw [nextRequest, h]; exact if_neg lower⟩

/-- An answer leaves the store as it is. -/
@[simp] theorem answer_tst (code : AnswerCode) (data : List Byte) (p : Part) : (p.answer code data).tst = p.tst := by
  unfold Part.answer
  split <;> rfl

theorem grantStoreFrom_served (fuel : Nat) (p : Part) (enough : p.tst.waiting.length ≤ fuel)
    (free : (p.grantStoreFrom fuel).tst.current = none) : (p.grantStoreFrom fuel).tst.waiting = [] := by
  induction fuel generalizing p with
  | zero => exact List.length_eq_zero_iff.mp (Nat.le_zero.mp enough)
  | succ n ih =>
    cases hc : p.tst.current with
    | some a => simp [Part.grantStoreFrom, hc] at free
    | none =>
      cases hw : p.tst.waiting with
      | nil => simp [Part.grantStoreFrom, hc, hw, nextRequest]
      | cons q l =>
        obtain ⟨r, hr, h⟩ := nextRequest_cons q l
        have fewer : (p.removeRequest r).tst.waiting.length ≤ n := by
          rw [hw] at enough
          simp only [Part.removeRequest, hw, List.length_erase_of_mem hr]
          exact Nat.sub_le_of_le_add enough
        rw [← hw] at h
        simp only [Part.grantStoreFrom, hc, h] at free ⊢
        split at free
        · rw [if_pos ‹_›]
          exact ih _ (by rwa [answer_tst]) free
        · rw [if_neg ‹_›]
          split at free
          · rw [if_pos ‹_›]
            exact ih _ fewer free
          · exact absurd free (by simp)

/-- The store's arbiter leaves no request waiting at a free store (R177). -/
theorem grantStore_served (p : Part) (free : p.grantStore.tst.current = none) : p.grantStore.tst.waiting = [] :=
  grantStoreFrom_served _ p (Nat.le_refl _) free

/-! ### The walks (R139) -/

/-- The walk that is next is begun where none is in progress (R139). -/
theorem beginWalk_served (p : Part) (idle : p.beginWalk.hre.walk = none) : p.beginWalk.hre.queue = [] := by
  cases hw : p.hre.walk with
  | some w => simp [Part.beginWalk, hw] at idle
  | none =>
    cases hq : p.hre.queue with
    | nil => simp [Part.beginWalk, hw, hq]
    | cons r rest => simp [Part.beginWalk, hw, hq, Part.requestRead, Part.request] at idle

/-! ### The drive bus arbiter (R126) -/

/-- What is offered in class 1 is the write of an arm (R125). -/
theorem grantable_write {d : Dbm} {n : Fin 3} (h : d.grantable = some (1, n)) : d.interlock = .writing := by
  have offered : d.offers n 1 = true := by
    revert h
    unfold Dbm.grantable
    split
    · exact fun h => nomatch h
    · split
      · rintro ⟨⟩
        assumption
      · exact fun h => nomatch h
    · intro h
      have found : (d.offers n 1 && d.resetAllows n 1) = true :=
        List.find?_some (p := fun o : Nat × Fin 3 => d.offers o.2 o.1 && d.resetAllows o.2 o.1) h
      exact (Bool.and_eq_true_iff.mp found).1
  simp only [Dbm.offers, Bool.and_eq_true, beq_iff_eq] at offered
  exact offered.2.1.2

/-- A lapsed arm changes nothing of the drive bus. -/
@[simp] theorem armLapsed_dbm (p : Part) : p.armLapsed.dbm = p.dbm := by
  unfold Part.armLapsed
  split <;> rfl

/-- An arm that ends at the midpoint leaves the interlock NONE (R128). -/
theorem armAtMidpoint_interlock (p : Part) : p.armAtMidpoint.dbm.interlock = .none := by
  simp [Part.armAtMidpoint, Part.markBus]

/-- The drive bus is granted where it can be (R126). -/
theorem grantBus_served (p : Part) : p.grantBus.dbm.grantable = none := by
  have wired : ∀ (n : Fin 3) (g : Bool) (q : Part), (q.putOnWire n g).dbm.grantable = none := fun _ _ _ => rfl
  unfold Part.grantBus Part.grantFrom
  cases h : p.dbm.grantable with
  | none => exact h
  | some o =>
    obtain ⟨c, n⟩ := o
    by_cases lapses : c = 1 ∧ ¬ p.bladePermitted = true
    · simp only [if_pos lapses]
      unfold Part.grantFrom
      cases h' : p.armAtMidpoint.dbm.grantable with
      | none => exact h'
      | some o' =>
        obtain ⟨c', n'⟩ := o'
        have other : c' ≠ 1 := by
          rintro rfl
          have writing := grantable_write h'
          rw [armAtMidpoint_interlock] at writing
          exact nomatch writing
        simp only [if_neg fun x : c' = 1 ∧ _ => other x.1]
        exact wired ..
    · simp only [if_neg lapses]
      exact wired ..

end Sys2Proof.Laws
end

