-- ==== Sys2Proof/Laws/State.lean ====
section
/-! SUPPORT. The named updates of the state, one rewrite rule per field: what each leaves and what each
    sets, all true by computation. -/

namespace Sys2Proof.Machine

@[simp] theorem Part.takeSerial_keeps (p : Part) :
    p.takeSerial.fcu = p.fcu ∧ p.takeSerial.scr = p.scr ∧ p.takeSerial.ltr = p.ltr ∧ p.takeSerial.sq =
    p.sq ∧ p.takeSerial.msh = p.msh ∧ p.takeSerial.dbm = p.dbm ∧ p.takeSerial.sin = p.sin ∧
    p.takeSerial.hre = p.hre ∧ p.takeSerial.rtu = p.rtu ∧ p.takeSerial.tst = p.tst ∧ p.takeSerial.plp =
    p.plp ∧ p.takeSerial.nco = p.nco ∧ p.takeSerial.agenda = p.agenda ∧ p.takeSerial.clock = p.clock ∧
    p.takeSerial.free = p.free :=
  ⟨rfl, rfl, rfl, rfl, rfl, rfl, rfl, rfl, rfl, rfl, rfl, rfl, rfl, rfl, rfl⟩

@[simp] theorem Part.markMode_keeps (p : Part) :
    p.markMode.fcu = p.fcu ∧ p.markMode.scr = p.scr ∧ p.markMode.ltr = p.ltr ∧ p.markMode.sq = p.sq ∧
    p.markMode.msh = p.msh ∧ p.markMode.dbm = p.dbm ∧ p.markMode.sin = p.sin ∧ p.markMode.hre = p.hre ∧
    p.markMode.rtu = p.rtu ∧ p.markMode.tst = p.tst ∧ p.markMode.plp = p.plp ∧ p.markMode.nco = p.nco ∧
    p.markMode.agenda.removed = p.agenda.removed ∧ p.markMode.agenda.period = p.agenda.period ∧
    p.markMode.agenda.walk = p.agenda.walk ∧ p.markMode.agenda.bus = p.agenda.bus ∧
    p.markMode.agenda.store = p.agenda.store ∧ p.markMode.agenda.port = p.agenda.port ∧
    p.markMode.agenda.held = p.agenda.held ∧ p.markMode.agenda.frames = p.agenda.frames ∧ p.markMode.clock
    = p.clock ∧ p.markMode.serial = p.serial ∧ p.markMode.free = p.free :=
  ⟨rfl, rfl, rfl, rfl, rfl, rfl, rfl, rfl, rfl, rfl, rfl, rfl, rfl, rfl, rfl, rfl, rfl, rfl, rfl, rfl,
   rfl, rfl, rfl⟩

@[simp] theorem Part.markMotion_keeps (p : Part) :
    p.markMotion.fcu = p.fcu ∧ p.markMotion.scr = p.scr ∧ p.markMotion.ltr = p.ltr ∧ p.markMotion.sq =
    p.sq ∧ p.markMotion.msh = p.msh ∧ p.markMotion.dbm = p.dbm ∧ p.markMotion.sin = p.sin ∧
    p.markMotion.hre = p.hre ∧ p.markMotion.rtu = p.rtu ∧ p.markMotion.tst = p.tst ∧ p.markMotion.plp =
    p.plp ∧ p.markMotion.nco = p.nco ∧ p.markMotion.agenda.removed = p.agenda.removed ∧
    p.markMotion.agenda.starved = p.agenda.starved ∧ p.markMotion.agenda.returning = p.agenda.returning ∧
    p.markMotion.agenda.period = p.agenda.period ∧ p.markMotion.agenda.walk = p.agenda.walk ∧
    p.markMotion.agenda.bus = p.agenda.bus ∧ p.markMotion.agenda.store = p.agenda.store ∧
    p.markMotion.agenda.port = p.agenda.port ∧ p.markMotion.agenda.held = p.agenda.held ∧
    p.markMotion.agenda.frames = p.agenda.frames ∧ p.markMotion.clock = p.clock ∧ p.markMotion.serial =
    p.serial ∧ p.markMotion.free = p.free :=
  ⟨rfl, rfl, rfl, rfl, rfl, rfl, rfl, rfl, rfl, rfl, rfl, rfl, rfl, rfl, rfl, rfl, rfl, rfl, rfl, rfl,
   rfl, rfl, rfl, rfl, rfl⟩

@[simp] theorem Part.request_keeps (owner : Owner) (kind : AccessKind) (reader : Reader) (p : Part) :
    (p.request owner kind reader).fcu = p.fcu ∧ (p.request owner kind reader).scr = p.scr ∧ (p.request
    owner kind reader).ltr = p.ltr ∧ (p.request owner kind reader).sq = p.sq ∧ (p.request owner kind
    reader).msh = p.msh ∧ (p.request owner kind reader).dbm = p.dbm ∧ (p.request owner kind reader).sin =
    p.sin ∧ (p.request owner kind reader).hre = p.hre ∧ (p.request owner kind reader).rtu = p.rtu ∧
    (p.request owner kind reader).tst.poisoned = p.tst.poisoned ∧ (p.request owner kind reader).tst.mode =
    p.tst.mode ∧ (p.request owner kind reader).tst.pattern = p.tst.pattern ∧ (p.request owner kind
    reader).tst.capture = p.tst.capture ∧ (p.request owner kind reader).tst.log = p.tst.log ∧ (p.request
    owner kind reader).tst.scrubPointer = p.tst.scrubPointer ∧ (p.request owner kind
    reader).tst.scrubTimer = p.tst.scrubTimer ∧ (p.request owner kind reader).tst.scrubPeriod =
    p.tst.scrubPeriod ∧ (p.request owner kind reader).tst.current = p.tst.current ∧ (p.request owner kind
    reader).plp = p.plp ∧ (p.request owner kind reader).nco = p.nco ∧ (p.request owner kind
    reader).agenda.blade = p.agenda.blade ∧ (p.request owner kind reader).agenda.deferral =
    p.agenda.deferral ∧ (p.request owner kind reader).agenda.removed = p.agenda.removed ∧ (p.request owner
    kind reader).agenda.starved = p.agenda.starved ∧ (p.request owner kind reader).agenda.returning =
    p.agenda.returning ∧ (p.request owner kind reader).agenda.period = p.agenda.period ∧ (p.request owner
    kind reader).agenda.walk = p.agenda.walk ∧ (p.request owner kind reader).agenda.bus = p.agenda.bus ∧
    (p.request owner kind reader).agenda.port = p.agenda.port ∧ (p.request owner kind reader).agenda.held
    = p.agenda.held ∧ (p.request owner kind reader).agenda.frames = p.agenda.frames ∧ (p.request owner
    kind reader).clock = p.clock ∧ (p.request owner kind reader).serial = p.serial ∧ (p.request owner kind
    reader).free = p.free :=
  ⟨rfl, rfl, rfl, rfl, rfl, rfl, rfl, rfl, rfl, rfl, rfl, rfl, rfl, rfl, rfl, rfl, rfl, rfl, rfl, rfl,
   rfl, rfl, rfl, rfl, rfl, rfl, rfl, rfl, rfl, rfl, rfl, rfl, rfl, rfl⟩

@[simp] theorem Part.requestRead_keeps (owner : Owner) (t : Table) (i : Nat) (reader : Reader) (p : Part)
:
    (p.requestRead owner t i reader).fcu = p.fcu ∧ (p.requestRead owner t i reader).scr = p.scr ∧
    (p.requestRead owner t i reader).ltr = p.ltr ∧ (p.requestRead owner t i reader).sq = p.sq ∧
    (p.requestRead owner t i reader).msh = p.msh ∧ (p.requestRead owner t i reader).dbm = p.dbm ∧
    (p.requestRead owner t i reader).sin = p.sin ∧ (p.requestRead owner t i reader).hre = p.hre ∧
    (p.requestRead owner t i reader).rtu = p.rtu ∧ (p.requestRead owner t i reader).tst.poisoned =
    p.tst.poisoned ∧ (p.requestRead owner t i reader).tst.mode = p.tst.mode ∧ (p.requestRead owner t i
    reader).tst.pattern = p.tst.pattern ∧ (p.requestRead owner t i reader).tst.capture = p.tst.capture ∧
    (p.requestRead owner t i reader).tst.log = p.tst.log ∧ (p.requestRead owner t i
    reader).tst.scrubPointer = p.tst.scrubPointer ∧ (p.requestRead owner t i reader).tst.scrubTimer =
    p.tst.scrubTimer ∧ (p.requestRead owner t i reader).tst.scrubPeriod = p.tst.scrubPeriod ∧
    (p.requestRead owner t i reader).tst.current = p.tst.current ∧ (p.requestRead owner t i reader).plp =
    p.plp ∧ (p.requestRead owner t i reader).nco = p.nco ∧ (p.requestRead owner t i reader).agenda.blade =
    p.agenda.blade ∧ (p.requestRead owner t i reader).agenda.deferral = p.agenda.deferral ∧ (p.requestRead
    owner t i reader).agenda.removed = p.agenda.removed ∧ (p.requestRead owner t i reader).agenda.starved
    = p.agenda.starved ∧ (p.requestRead owner t i reader).agenda.returning = p.agenda.returning ∧
    (p.requestRead owner t i reader).agenda.period = p.agenda.period ∧ (p.requestRead owner t i
    reader).agenda.walk = p.agenda.walk ∧ (p.requestRead owner t i reader).agenda.bus = p.agenda.bus ∧
    (p.requestRead owner t i reader).agenda.port = p.agenda.port ∧ (p.requestRead owner t i
    reader).agenda.held = p.agenda.held ∧ (p.requestRead owner t i reader).agenda.frames = p.agenda.frames
    ∧ (p.requestRead owner t i reader).clock = p.clock ∧ (p.requestRead owner t i reader).serial =
    p.serial ∧ (p.requestRead owner t i reader).free = p.free :=
  ⟨rfl, rfl, rfl, rfl, rfl, rfl, rfl, rfl, rfl, rfl, rfl, rfl, rfl, rfl, rfl, rfl, rfl, rfl, rfl, rfl,
   rfl, rfl, rfl, rfl, rfl, rfl, rfl, rfl, rfl, rfl, rfl, rfl, rfl, rfl⟩

@[simp] theorem Part.withdraw_keeps (owner : Owner) (p : Part) :
    (p.withdraw owner).fcu = p.fcu ∧ (p.withdraw owner).scr = p.scr ∧ (p.withdraw owner).ltr = p.ltr ∧
    (p.withdraw owner).sq = p.sq ∧ (p.withdraw owner).msh = p.msh ∧ (p.withdraw owner).dbm = p.dbm ∧
    (p.withdraw owner).sin = p.sin ∧ (p.withdraw owner).hre = p.hre ∧ (p.withdraw owner).rtu = p.rtu ∧
    (p.withdraw owner).tst.poisoned = p.tst.poisoned ∧ (p.withdraw owner).tst.mode = p.tst.mode ∧
    (p.withdraw owner).tst.pattern = p.tst.pattern ∧ (p.withdraw owner).tst.capture = p.tst.capture ∧
    (p.withdraw owner).tst.log = p.tst.log ∧ (p.withdraw owner).tst.scrubPointer = p.tst.scrubPointer ∧
    (p.withdraw owner).tst.scrubTimer = p.tst.scrubTimer ∧ (p.withdraw owner).tst.scrubPeriod =
    p.tst.scrubPeriod ∧ (p.withdraw owner).plp = p.plp ∧ (p.withdraw owner).nco = p.nco ∧ (p.withdraw
    owner).agenda = p.agenda ∧ (p.withdraw owner).clock = p.clock ∧ (p.withdraw owner).serial = p.serial ∧
    (p.withdraw owner).free = p.free :=
  ⟨rfl, rfl, rfl, rfl, rfl, rfl, rfl, rfl, rfl, rfl, rfl, rfl, rfl, rfl, rfl, rfl, rfl, rfl, rfl, rfl,
   rfl, rfl, rfl⟩

@[simp] theorem Part.requestWalk_keeps (source : Source) (subject : Nat) (value : Int) (p : Part) :
    (p.requestWalk source subject value).fcu = p.fcu ∧ (p.requestWalk source subject value).scr = p.scr ∧
    (p.requestWalk source subject value).ltr = p.ltr ∧ (p.requestWalk source subject value).sq = p.sq ∧
    (p.requestWalk source subject value).msh = p.msh ∧ (p.requestWalk source subject value).dbm = p.dbm ∧
    (p.requestWalk source subject value).sin = p.sin ∧ (p.requestWalk source subject value).hre.walk =
    p.hre.walk ∧ (p.requestWalk source subject value).hre.active = p.hre.active ∧ (p.requestWalk source
    subject value).hre.pending = p.hre.pending ∧ (p.requestWalk source subject value).rtu = p.rtu ∧
    (p.requestWalk source subject value).tst = p.tst ∧ (p.requestWalk source subject value).plp = p.plp ∧
    (p.requestWalk source subject value).nco = p.nco ∧ (p.requestWalk source subject value).agenda.blade =
    p.agenda.blade ∧ (p.requestWalk source subject value).agenda.deferral = p.agenda.deferral ∧
    (p.requestWalk source subject value).agenda.removed = p.agenda.removed ∧ (p.requestWalk source subject
    value).agenda.starved = p.agenda.starved ∧ (p.requestWalk source subject value).agenda.returning =
    p.agenda.returning ∧ (p.requestWalk source subject value).agenda.period = p.agenda.period ∧
    (p.requestWalk source subject value).agenda.bus = p.agenda.bus ∧ (p.requestWalk source subject
    value).agenda.store = p.agenda.store ∧ (p.requestWalk source subject value).agenda.port =
    p.agenda.port ∧ (p.requestWalk source subject value).agenda.held = p.agenda.held ∧ (p.requestWalk
    source subject value).agenda.frames = p.agenda.frames ∧ (p.requestWalk source subject value).clock =
    p.clock ∧ (p.requestWalk source subject value).serial = p.serial ∧ (p.requestWalk source subject
    value).free = p.free :=
  ⟨rfl, rfl, rfl, rfl, rfl, rfl, rfl, rfl, rfl, rfl, rfl, rfl, rfl, rfl, rfl, rfl, rfl, rfl, rfl, rfl,
   rfl, rfl, rfl, rfl, rfl, rfl, rfl, rfl⟩

@[simp] theorem Part.mapNode_keeps (n : Fin 3) (f : Node → Node) (p : Part) :
    (p.mapNode n f).fcu = p.fcu ∧ (p.mapNode n f).scr = p.scr ∧ (p.mapNode n f).ltr = p.ltr ∧ (p.mapNode n
    f).sq = p.sq ∧ (p.mapNode n f).msh = p.msh ∧ (p.mapNode n f).dbm.bus = p.dbm.bus ∧ (p.mapNode n
    f).dbm.interlock = p.dbm.interlock ∧ (p.mapNode n f).dbm.number = p.dbm.number ∧ (p.mapNode n
    f).dbm.resetStops = p.dbm.resetStops ∧ (p.mapNode n f).dbm.responseLimit = p.dbm.responseLimit ∧
    (p.mapNode n f).dbm.holdLimit = p.dbm.holdLimit ∧ (p.mapNode n f).sin = p.sin ∧ (p.mapNode n f).hre =
    p.hre ∧ (p.mapNode n f).rtu = p.rtu ∧ (p.mapNode n f).tst = p.tst ∧ (p.mapNode n f).plp = p.plp ∧
    (p.mapNode n f).nco = p.nco ∧ (p.mapNode n f).agenda = p.agenda ∧ (p.mapNode n f).clock = p.clock ∧
    (p.mapNode n f).serial = p.serial ∧ (p.mapNode n f).free = p.free :=
  ⟨rfl, rfl, rfl, rfl, rfl, rfl, rfl, rfl, rfl, rfl, rfl, rfl, rfl, rfl, rfl, rfl, rfl, rfl, rfl, rfl,
   rfl⟩

@[simp] theorem Part.markBus_keeps (p : Part) :
    p.markBus.fcu = p.fcu ∧ p.markBus.scr = p.scr ∧ p.markBus.ltr = p.ltr ∧ p.markBus.sq = p.sq ∧
    p.markBus.msh = p.msh ∧ p.markBus.dbm = p.dbm ∧ p.markBus.sin = p.sin ∧ p.markBus.hre = p.hre ∧
    p.markBus.rtu = p.rtu ∧ p.markBus.tst = p.tst ∧ p.markBus.plp = p.plp ∧ p.markBus.nco = p.nco ∧
    p.markBus.agenda.blade = p.agenda.blade ∧ p.markBus.agenda.deferral = p.agenda.deferral ∧
    p.markBus.agenda.removed = p.agenda.removed ∧ p.markBus.agenda.starved = p.agenda.starved ∧
    p.markBus.agenda.returning = p.agenda.returning ∧ p.markBus.agenda.period = p.agenda.period ∧
    p.markBus.agenda.walk = p.agenda.walk ∧ p.markBus.agenda.store = p.agenda.store ∧
    p.markBus.agenda.port = p.agenda.port ∧ p.markBus.agenda.held = p.agenda.held ∧
    p.markBus.agenda.frames = p.agenda.frames ∧ p.markBus.clock = p.clock ∧ p.markBus.serial = p.serial ∧
    p.markBus.free = p.free :=
  ⟨rfl, rfl, rfl, rfl, rfl, rfl, rfl, rfl, rfl, rfl, rfl, rfl, rfl, rfl, rfl, rfl, rfl, rfl, rfl, rfl,
   rfl, rfl, rfl, rfl, rfl, rfl⟩

@[simp] theorem Part.mirrorLevel_keeps (p : Part) :
    p.mirrorLevel.fcu.mode = p.fcu.mode ∧ p.mirrorLevel.fcu.resume = p.fcu.resume ∧
    p.mirrorLevel.fcu.stopCause = p.fcu.stopCause ∧ p.mirrorLevel.fcu.blade = p.fcu.blade ∧
    p.mirrorLevel.fcu.armRefused = p.fcu.armRefused ∧ p.mirrorLevel.fcu.permission = p.fcu.permission ∧
    p.mirrorLevel.fcu.keepSilent = p.fcu.keepSilent ∧ p.mirrorLevel.fcu.keepTimer = p.fcu.keepTimer ∧
    p.mirrorLevel.fcu.keepLimit = p.fcu.keepLimit ∧ p.mirrorLevel.fcu.silentAction = p.fcu.silentAction ∧
    p.mirrorLevel.fcu.zoneBladeMax = p.fcu.zoneBladeMax ∧ p.mirrorLevel.fcu.levelToSend =
    p.fcu.levelToSend ∧ p.mirrorLevel.scr = p.scr ∧ p.mirrorLevel.ltr = p.ltr ∧ p.mirrorLevel.sq = p.sq ∧
    p.mirrorLevel.msh = p.msh ∧ p.mirrorLevel.dbm = p.dbm ∧ p.mirrorLevel.sin = p.sin ∧ p.mirrorLevel.hre
    = p.hre ∧ p.mirrorLevel.rtu = p.rtu ∧ p.mirrorLevel.tst = p.tst ∧ p.mirrorLevel.plp = p.plp ∧
    p.mirrorLevel.nco = p.nco ∧ p.mirrorLevel.agenda.deferral = p.agenda.deferral ∧
    p.mirrorLevel.agenda.removed = p.agenda.removed ∧ p.mirrorLevel.agenda.starved = p.agenda.starved ∧
    p.mirrorLevel.agenda.returning = p.agenda.returning ∧ p.mirrorLevel.agenda.period = p.agenda.period ∧
    p.mirrorLevel.agenda.walk = p.agenda.walk ∧ p.mirrorLevel.agenda.bus = p.agenda.bus ∧
    p.mirrorLevel.agenda.store = p.agenda.store ∧ p.mirrorLevel.agenda.port = p.agenda.port ∧
    p.mirrorLevel.agenda.held = p.agenda.held ∧ p.mirrorLevel.agenda.frames = p.agenda.frames ∧
    p.mirrorLevel.clock = p.clock ∧ p.mirrorLevel.serial = p.serial ∧ p.mirrorLevel.free = p.free :=
  ⟨rfl, rfl, rfl, rfl, rfl, rfl, rfl, rfl, rfl, rfl, rfl, rfl, rfl, rfl, rfl, rfl, rfl, rfl, rfl, rfl,
   rfl, rfl, rfl, rfl, rfl, rfl, rfl, rfl, rfl, rfl, rfl, rfl, rfl, rfl, rfl, rfl, rfl⟩

@[simp] theorem Part.endWalk_keeps (p : Part) :
    p.endWalk.fcu = p.fcu ∧ p.endWalk.scr = p.scr ∧ p.endWalk.ltr = p.ltr ∧ p.endWalk.sq = p.sq ∧
    p.endWalk.msh = p.msh ∧ p.endWalk.dbm = p.dbm ∧ p.endWalk.sin = p.sin ∧ p.endWalk.hre.queue =
    p.hre.queue ∧ p.endWalk.hre.active = p.hre.active ∧ p.endWalk.hre.pending = p.hre.pending ∧
    p.endWalk.rtu = p.rtu ∧ p.endWalk.tst = p.tst ∧ p.endWalk.plp = p.plp ∧ p.endWalk.nco = p.nco ∧
    p.endWalk.agenda.blade = p.agenda.blade ∧ p.endWalk.agenda.deferral = p.agenda.deferral ∧
    p.endWalk.agenda.removed = p.agenda.removed ∧ p.endWalk.agenda.starved = p.agenda.starved ∧
    p.endWalk.agenda.returning = p.agenda.returning ∧ p.endWalk.agenda.period = p.agenda.period ∧
    p.endWalk.agenda.bus = p.agenda.bus ∧ p.endWalk.agenda.store = p.agenda.store ∧ p.endWalk.agenda.port
    = p.agenda.port ∧ p.endWalk.agenda.held = p.agenda.held ∧ p.endWalk.agenda.frames = p.agenda.frames ∧
    p.endWalk.clock = p.clock ∧ p.endWalk.serial = p.serial ∧ p.endWalk.free = p.free :=
  ⟨rfl, rfl, rfl, rfl, rfl, rfl, rfl, rfl, rfl, rfl, rfl, rfl, rfl, rfl, rfl, rfl, rfl, rfl, rfl, rfl,
   rfl, rfl, rfl, rfl, rfl, rfl, rfl, rfl⟩

@[simp] theorem Part.freeStore_keeps (p : Part) :
    p.freeStore.fcu = p.fcu ∧ p.freeStore.scr = p.scr ∧ p.freeStore.ltr = p.ltr ∧ p.freeStore.sq = p.sq ∧
    p.freeStore.msh = p.msh ∧ p.freeStore.dbm = p.dbm ∧ p.freeStore.sin = p.sin ∧ p.freeStore.hre = p.hre
    ∧ p.freeStore.rtu = p.rtu ∧ p.freeStore.tst.poisoned = p.tst.poisoned ∧ p.freeStore.tst.mode =
    p.tst.mode ∧ p.freeStore.tst.pattern = p.tst.pattern ∧ p.freeStore.tst.capture = p.tst.capture ∧
    p.freeStore.tst.log = p.tst.log ∧ p.freeStore.tst.scrubPointer = p.tst.scrubPointer ∧
    p.freeStore.tst.scrubTimer = p.tst.scrubTimer ∧ p.freeStore.tst.scrubPeriod = p.tst.scrubPeriod ∧
    p.freeStore.tst.waiting = p.tst.waiting ∧ p.freeStore.plp = p.plp ∧ p.freeStore.nco = p.nco ∧
    p.freeStore.agenda.blade = p.agenda.blade ∧ p.freeStore.agenda.deferral = p.agenda.deferral ∧
    p.freeStore.agenda.removed = p.agenda.removed ∧ p.freeStore.agenda.starved = p.agenda.starved ∧
    p.freeStore.agenda.returning = p.agenda.returning ∧ p.freeStore.agenda.period = p.agenda.period ∧
    p.freeStore.agenda.walk = p.agenda.walk ∧ p.freeStore.agenda.bus = p.agenda.bus ∧
    p.freeStore.agenda.port = p.agenda.port ∧ p.freeStore.agenda.held = p.agenda.held ∧
    p.freeStore.agenda.frames = p.agenda.frames ∧ p.freeStore.clock = p.clock ∧ p.freeStore.serial =
    p.serial ∧ p.freeStore.free = p.free :=
  ⟨rfl, rfl, rfl, rfl, rfl, rfl, rfl, rfl, rfl, rfl, rfl, rfl, rfl, rfl, rfl, rfl, rfl, rfl, rfl, rfl,
   rfl, rfl, rfl, rfl, rfl, rfl, rfl, rfl, rfl, rfl, rfl, rfl, rfl, rfl⟩

@[simp] theorem Part.removeRequest_keeps (q : Request) (p : Part) :
    (p.removeRequest q).fcu = p.fcu ∧ (p.removeRequest q).scr = p.scr ∧ (p.removeRequest q).ltr = p.ltr ∧
    (p.removeRequest q).sq = p.sq ∧ (p.removeRequest q).msh = p.msh ∧ (p.removeRequest q).dbm = p.dbm ∧
    (p.removeRequest q).sin = p.sin ∧ (p.removeRequest q).hre = p.hre ∧ (p.removeRequest q).rtu = p.rtu ∧
    (p.removeRequest q).tst.poisoned = p.tst.poisoned ∧ (p.removeRequest q).tst.mode = p.tst.mode ∧
    (p.removeRequest q).tst.pattern = p.tst.pattern ∧ (p.removeRequest q).tst.capture = p.tst.capture ∧
    (p.removeRequest q).tst.log = p.tst.log ∧ (p.removeRequest q).tst.scrubPointer = p.tst.scrubPointer ∧
    (p.removeRequest q).tst.scrubTimer = p.tst.scrubTimer ∧ (p.removeRequest q).tst.scrubPeriod =
    p.tst.scrubPeriod ∧ (p.removeRequest q).tst.current = p.tst.current ∧ (p.removeRequest q).plp = p.plp
    ∧ (p.removeRequest q).nco = p.nco ∧ (p.removeRequest q).agenda = p.agenda ∧ (p.removeRequest q).clock
    = p.clock ∧ (p.removeRequest q).serial = p.serial ∧ (p.removeRequest q).free = p.free :=
  ⟨rfl, rfl, rfl, rfl, rfl, rfl, rfl, rfl, rfl, rfl, rfl, rfl, rfl, rfl, rfl, rfl, rfl, rfl, rfl, rfl,
   rfl, rfl, rfl, rfl⟩

@[simp] theorem Part.begin_keeps (p : Part) :
    p.begin.fcu = p.fcu ∧ p.begin.scr = p.scr ∧ p.begin.ltr = p.ltr ∧ p.begin.sq = p.sq ∧ p.begin.msh =
    p.msh ∧ p.begin.dbm = p.dbm ∧ p.begin.sin = p.sin ∧ p.begin.hre = p.hre ∧ p.begin.rtu = p.rtu ∧
    p.begin.tst = p.tst ∧ p.begin.plp = p.plp ∧ p.begin.nco = p.nco ∧ p.begin.clock = p.clock ∧
    p.begin.serial = p.serial ∧ p.begin.free = p.free :=
  ⟨rfl, rfl, rfl, rfl, rfl, rfl, rfl, rfl, rfl, rfl, rfl, rfl, rfl, rfl, rfl⟩

@[simp] theorem Part.resetStopEnded_keeps (n : Fin 3) (p : Part) :
    (p.resetStopEnded n).fcu = p.fcu ∧ (p.resetStopEnded n).scr = p.scr ∧ (p.resetStopEnded n).ltr = p.ltr
    ∧ (p.resetStopEnded n).sq = p.sq ∧ (p.resetStopEnded n).msh = p.msh ∧ (p.resetStopEnded n).dbm.nodes =
    p.dbm.nodes ∧ (p.resetStopEnded n).dbm.bus = p.dbm.bus ∧ (p.resetStopEnded n).dbm.interlock =
    p.dbm.interlock ∧ (p.resetStopEnded n).dbm.number = p.dbm.number ∧ (p.resetStopEnded
    n).dbm.responseLimit = p.dbm.responseLimit ∧ (p.resetStopEnded n).dbm.holdLimit = p.dbm.holdLimit ∧
    (p.resetStopEnded n).sin = p.sin ∧ (p.resetStopEnded n).hre = p.hre ∧ (p.resetStopEnded n).rtu = p.rtu
    ∧ (p.resetStopEnded n).tst = p.tst ∧ (p.resetStopEnded n).plp = p.plp ∧ (p.resetStopEnded n).nco =
    p.nco ∧ (p.resetStopEnded n).agenda = p.agenda ∧ (p.resetStopEnded n).clock = p.clock ∧
    (p.resetStopEnded n).serial = p.serial ∧ (p.resetStopEnded n).free = p.free :=
  ⟨rfl, rfl, rfl, rfl, rfl, rfl, rfl, rfl, rfl, rfl, rfl, rfl, rfl, rfl, rfl, rfl, rfl, rfl, rfl, rfl,
   rfl⟩

@[simp] theorem Part.putOnWire_keeps (n : Fin 3) (grant : Bool) (p : Part) :
    (p.putOnWire n grant).fcu = p.fcu ∧ (p.putOnWire n grant).scr = p.scr ∧ (p.putOnWire n grant).ltr =
    p.ltr ∧ (p.putOnWire n grant).sq = p.sq ∧ (p.putOnWire n grant).msh = p.msh ∧ (p.putOnWire n
    grant).dbm.nodes = p.dbm.nodes ∧ (p.putOnWire n grant).dbm.interlock = p.dbm.interlock ∧ (p.putOnWire
    n grant).dbm.resetStops = p.dbm.resetStops ∧ (p.putOnWire n grant).dbm.responseLimit =
    p.dbm.responseLimit ∧ (p.putOnWire n grant).dbm.holdLimit = p.dbm.holdLimit ∧ (p.putOnWire n
    grant).sin = p.sin ∧ (p.putOnWire n grant).hre = p.hre ∧ (p.putOnWire n grant).rtu = p.rtu ∧
    (p.putOnWire n grant).tst = p.tst ∧ (p.putOnWire n grant).plp = p.plp ∧ (p.putOnWire n grant).nco =
    p.nco ∧ (p.putOnWire n grant).agenda = p.agenda ∧ (p.putOnWire n grant).clock = p.clock ∧ (p.putOnWire
    n grant).serial = p.serial ∧ (p.putOnWire n grant).free = p.free :=
  ⟨rfl, rfl, rfl, rfl, rfl, rfl, rfl, rfl, rfl, rfl, rfl, rfl, rfl, rfl, rfl, rfl, rfl, rfl, rfl, rfl⟩

@[simp] theorem Part.tryEnded_keeps (n : Fin 3) (p : Part) :
    (p.tryEnded n).fcu = p.fcu ∧ (p.tryEnded n).scr = p.scr ∧ (p.tryEnded n).ltr = p.ltr ∧ (p.tryEnded
    n).sq = p.sq ∧ (p.tryEnded n).msh = p.msh ∧ (p.tryEnded n).dbm.nodes = p.dbm.nodes ∧ (p.tryEnded
    n).dbm.interlock = p.dbm.interlock ∧ (p.tryEnded n).dbm.number = p.dbm.number ∧ (p.tryEnded
    n).dbm.resetStops = p.dbm.resetStops ∧ (p.tryEnded n).dbm.responseLimit = p.dbm.responseLimit ∧
    (p.tryEnded n).dbm.holdLimit = p.dbm.holdLimit ∧ (p.tryEnded n).sin = p.sin ∧ (p.tryEnded n).hre =
    p.hre ∧ (p.tryEnded n).rtu = p.rtu ∧ (p.tryEnded n).tst = p.tst ∧ (p.tryEnded n).plp = p.plp ∧
    (p.tryEnded n).nco = p.nco ∧ (p.tryEnded n).agenda.blade = p.agenda.blade ∧ (p.tryEnded
    n).agenda.deferral = p.agenda.deferral ∧ (p.tryEnded n).agenda.removed = p.agenda.removed ∧
    (p.tryEnded n).agenda.starved = p.agenda.starved ∧ (p.tryEnded n).agenda.returning =
    p.agenda.returning ∧ (p.tryEnded n).agenda.period = p.agenda.period ∧ (p.tryEnded n).agenda.walk =
    p.agenda.walk ∧ (p.tryEnded n).agenda.store = p.agenda.store ∧ (p.tryEnded n).agenda.port =
    p.agenda.port ∧ (p.tryEnded n).agenda.held = p.agenda.held ∧ (p.tryEnded n).agenda.frames =
    p.agenda.frames ∧ (p.tryEnded n).clock = p.clock ∧ (p.tryEnded n).serial = p.serial ∧ (p.tryEnded
    n).free = p.free :=
  ⟨rfl, rfl, rfl, rfl, rfl, rfl, rfl, rfl, rfl, rfl, rfl, rfl, rfl, rfl, rfl, rfl, rfl, rfl, rfl, rfl,
   rfl, rfl, rfl, rfl, rfl, rfl, rfl, rfl, rfl, rfl, rfl⟩

@[simp] theorem Part.dropHoming_keeps (p : Part) :
    p.dropHoming.fcu = p.fcu ∧ p.dropHoming.scr = p.scr ∧ p.dropHoming.ltr = p.ltr ∧ p.dropHoming.sq =
    p.sq ∧ p.dropHoming.msh = p.msh ∧ p.dropHoming.dbm = p.dbm ∧ p.dropHoming.sin = p.sin ∧
    p.dropHoming.hre = p.hre ∧ p.dropHoming.rtu.stack = p.rtu.stack ∧ p.dropHoming.rtu.overflow =
    p.rtu.overflow ∧ p.dropHoming.rtu.crossings = p.rtu.crossings ∧ p.dropHoming.rtu.applying =
    p.rtu.applying ∧ p.dropHoming.rtu.activity = p.rtu.activity ∧ p.dropHoming.rtu.params = p.rtu.params ∧
    p.dropHoming.rtu.distance = p.rtu.distance ∧ p.dropHoming.rtu.finalApproach = p.rtu.finalApproach ∧
    p.dropHoming.rtu.dockKey = p.rtu.dockKey ∧ p.dropHoming.rtu.attempts = p.rtu.attempts ∧
    p.dropHoming.rtu.settle = p.rtu.settle ∧ p.dropHoming.rtu.copies = p.rtu.copies ∧
    p.dropHoming.tst.poisoned = p.tst.poisoned ∧ p.dropHoming.tst.mode = p.tst.mode ∧
    p.dropHoming.tst.pattern = p.tst.pattern ∧ p.dropHoming.tst.capture = p.tst.capture ∧
    p.dropHoming.tst.log = p.tst.log ∧ p.dropHoming.tst.scrubPointer = p.tst.scrubPointer ∧
    p.dropHoming.tst.scrubTimer = p.tst.scrubTimer ∧ p.dropHoming.tst.scrubPeriod = p.tst.scrubPeriod ∧
    p.dropHoming.plp = p.plp ∧ p.dropHoming.nco = p.nco ∧ p.dropHoming.agenda.removed = p.agenda.removed ∧
    p.dropHoming.agenda.starved = p.agenda.starved ∧ p.dropHoming.agenda.returning = p.agenda.returning ∧
    p.dropHoming.agenda.period = p.agenda.period ∧ p.dropHoming.agenda.walk = p.agenda.walk ∧
    p.dropHoming.agenda.bus = p.agenda.bus ∧ p.dropHoming.agenda.store = p.agenda.store ∧
    p.dropHoming.agenda.port = p.agenda.port ∧ p.dropHoming.agenda.held = p.agenda.held ∧
    p.dropHoming.agenda.frames = p.agenda.frames ∧ p.dropHoming.clock = p.clock ∧ p.dropHoming.serial =
    p.serial ∧ p.dropHoming.free = p.free :=
  ⟨rfl, rfl, rfl, rfl, rfl, rfl, rfl, rfl, rfl, rfl, rfl, rfl, rfl, rfl, rfl, rfl, rfl, rfl, rfl, rfl,
   rfl, rfl, rfl, rfl, rfl, rfl, rfl, rfl, rfl, rfl, rfl, rfl, rfl, rfl, rfl, rfl, rfl, rfl, rfl, rfl,
   rfl, rfl, rfl⟩

@[simp] theorem Part.dropDocking_keeps (p : Part) :
    p.dropDocking.fcu = p.fcu ∧ p.dropDocking.scr = p.scr ∧ p.dropDocking.ltr = p.ltr ∧ p.dropDocking.sq =
    p.sq ∧ p.dropDocking.msh = p.msh ∧ p.dropDocking.dbm = p.dbm ∧ p.dropDocking.sin = p.sin ∧
    p.dropDocking.hre = p.hre ∧ p.dropDocking.rtu.stack = p.rtu.stack ∧ p.dropDocking.rtu.overflow =
    p.rtu.overflow ∧ p.dropDocking.rtu.crossings = p.rtu.crossings ∧ p.dropDocking.rtu.applying =
    p.rtu.applying ∧ p.dropDocking.rtu.planDue = p.rtu.planDue ∧ p.dropDocking.rtu.planning =
    p.rtu.planning ∧ p.dropDocking.rtu.leg = p.rtu.leg ∧ p.dropDocking.rtu.params = p.rtu.params ∧
    p.dropDocking.rtu.distance = p.rtu.distance ∧ p.dropDocking.rtu.dockKey = p.rtu.dockKey ∧
    p.dropDocking.rtu.attempts = p.rtu.attempts ∧ p.dropDocking.rtu.settle = p.rtu.settle ∧
    p.dropDocking.rtu.copies = p.rtu.copies ∧ p.dropDocking.tst = p.tst ∧ p.dropDocking.plp = p.plp ∧
    p.dropDocking.nco = p.nco ∧ p.dropDocking.agenda.removed = p.agenda.removed ∧
    p.dropDocking.agenda.starved = p.agenda.starved ∧ p.dropDocking.agenda.returning = p.agenda.returning
    ∧ p.dropDocking.agenda.period = p.agenda.period ∧ p.dropDocking.agenda.walk = p.agenda.walk ∧
    p.dropDocking.agenda.bus = p.agenda.bus ∧ p.dropDocking.agenda.store = p.agenda.store ∧
    p.dropDocking.agenda.port = p.agenda.port ∧ p.dropDocking.agenda.held = p.agenda.held ∧
    p.dropDocking.agenda.frames = p.agenda.frames ∧ p.dropDocking.clock = p.clock ∧ p.dropDocking.serial =
    p.serial ∧ p.dropDocking.free = p.free :=
  ⟨rfl, rfl, rfl, rfl, rfl, rfl, rfl, rfl, rfl, rfl, rfl, rfl, rfl, rfl, rfl, rfl, rfl, rfl, rfl, rfl,
   rfl, rfl, rfl, rfl, rfl, rfl, rfl, rfl, rfl, rfl, rfl, rfl, rfl, rfl, rfl, rfl, rfl⟩

@[simp] theorem Part.freshen_keeps (n : Fin 5) (p : Part) :
    (p.freshen n).fcu = p.fcu ∧ (p.freshen n).scr = p.scr ∧ (p.freshen n).ltr = p.ltr ∧ (p.freshen n).sq =
    p.sq ∧ (p.freshen n).msh = p.msh ∧ (p.freshen n).dbm = p.dbm ∧ (p.freshen n).sin.bumper = p.sin.bumper
    ∧ (p.freshen n).sin.attitude = p.sin.attitude ∧ (p.freshen n).sin.range = p.sin.range ∧ (p.freshen
    n).sin.environment = p.sin.environment ∧ (p.freshen n).sin.limits = p.sin.limits ∧ (p.freshen n).hre =
    p.hre ∧ (p.freshen n).rtu = p.rtu ∧ (p.freshen n).tst = p.tst ∧ (p.freshen n).plp = p.plp ∧ (p.freshen
    n).nco = p.nco ∧ (p.freshen n).agenda = p.agenda ∧ (p.freshen n).clock = p.clock ∧ (p.freshen
    n).serial = p.serial ∧ (p.freshen n).free = p.free :=
  ⟨rfl, rfl, rfl, rfl, rfl, rfl, rfl, rfl, rfl, rfl, rfl, rfl, rfl, rfl, rfl, rfl, rfl, rfl, rfl, rfl⟩

@[simp] theorem Part.startApproach_keeps (p : Part) :
    p.startApproach.fcu = p.fcu ∧ p.startApproach.scr = p.scr ∧ p.startApproach.ltr = p.ltr ∧
    p.startApproach.sq = p.sq ∧ p.startApproach.msh = p.msh ∧ p.startApproach.dbm = p.dbm ∧
    p.startApproach.sin = p.sin ∧ p.startApproach.hre = p.hre ∧ p.startApproach.rtu.stack = p.rtu.stack ∧
    p.startApproach.rtu.overflow = p.rtu.overflow ∧ p.startApproach.rtu.crossings = p.rtu.crossings ∧
    p.startApproach.rtu.applying = p.rtu.applying ∧ p.startApproach.rtu.planDue = p.rtu.planDue ∧
    p.startApproach.rtu.planning = p.rtu.planning ∧ p.startApproach.rtu.leg = p.rtu.leg ∧
    p.startApproach.rtu.attempts = p.rtu.attempts ∧ p.startApproach.rtu.copies = p.rtu.copies ∧
    p.startApproach.tst = p.tst ∧ p.startApproach.plp = p.plp ∧ p.startApproach.nco = p.nco ∧
    p.startApproach.agenda.removed = p.agenda.removed ∧ p.startApproach.agenda.starved = p.agenda.starved
    ∧ p.startApproach.agenda.returning = p.agenda.returning ∧ p.startApproach.agenda.period =
    p.agenda.period ∧ p.startApproach.agenda.walk = p.agenda.walk ∧ p.startApproach.agenda.bus =
    p.agenda.bus ∧ p.startApproach.agenda.store = p.agenda.store ∧ p.startApproach.agenda.port =
    p.agenda.port ∧ p.startApproach.agenda.held = p.agenda.held ∧ p.startApproach.agenda.frames =
    p.agenda.frames ∧ p.startApproach.clock = p.clock ∧ p.startApproach.free = p.free :=
  ⟨rfl, rfl, rfl, rfl, rfl, rfl, rfl, rfl, rfl, rfl, rfl, rfl, rfl, rfl, rfl, rfl, rfl, rfl, rfl, rfl,
   rfl, rfl, rfl, rfl, rfl, rfl, rfl, rfl, rfl, rfl, rfl, rfl⟩

@[simp] theorem Part.endLeg_keeps (p : Part) :
    p.endLeg.fcu = p.fcu ∧ p.endLeg.scr = p.scr ∧ p.endLeg.ltr = p.ltr ∧ p.endLeg.sq = p.sq ∧ p.endLeg.msh
    = p.msh ∧ p.endLeg.dbm = p.dbm ∧ p.endLeg.sin = p.sin ∧ p.endLeg.hre = p.hre ∧ p.endLeg.rtu.stack =
    p.rtu.stack ∧ p.endLeg.rtu.overflow = p.rtu.overflow ∧ p.endLeg.rtu.crossings = p.rtu.crossings ∧
    p.endLeg.rtu.applying = p.rtu.applying ∧ p.endLeg.rtu.planning = p.rtu.planning ∧
    p.endLeg.rtu.activity = p.rtu.activity ∧ p.endLeg.rtu.params = p.rtu.params ∧ p.endLeg.rtu.distance =
    p.rtu.distance ∧ p.endLeg.rtu.finalApproach = p.rtu.finalApproach ∧ p.endLeg.rtu.dockKey =
    p.rtu.dockKey ∧ p.endLeg.rtu.attempts = p.rtu.attempts ∧ p.endLeg.rtu.settle = p.rtu.settle ∧
    p.endLeg.rtu.copies = p.rtu.copies ∧ p.endLeg.tst = p.tst ∧ p.endLeg.plp = p.plp ∧ p.endLeg.nco =
    p.nco ∧ p.endLeg.agenda.removed = p.agenda.removed ∧ p.endLeg.agenda.starved = p.agenda.starved ∧
    p.endLeg.agenda.period = p.agenda.period ∧ p.endLeg.agenda.walk = p.agenda.walk ∧ p.endLeg.agenda.bus
    = p.agenda.bus ∧ p.endLeg.agenda.store = p.agenda.store ∧ p.endLeg.agenda.port = p.agenda.port ∧
    p.endLeg.agenda.held = p.agenda.held ∧ p.endLeg.agenda.frames = p.agenda.frames ∧ p.endLeg.clock =
    p.clock ∧ p.endLeg.serial = p.serial ∧ p.endLeg.free = p.free :=
  ⟨rfl, rfl, rfl, rfl, rfl, rfl, rfl, rfl, rfl, rfl, rfl, rfl, rfl, rfl, rfl, rfl, rfl, rfl, rfl, rfl,
   rfl, rfl, rfl, rfl, rfl, rfl, rfl, rfl, rfl, rfl, rfl, rfl, rfl, rfl, rfl, rfl⟩

@[simp] theorem Part.beginLeg_keeps (l : Leg) (p : Part) :
    (p.beginLeg l).fcu = p.fcu ∧ (p.beginLeg l).scr = p.scr ∧ (p.beginLeg l).ltr = p.ltr ∧ (p.beginLeg
    l).sq = p.sq ∧ (p.beginLeg l).msh = p.msh ∧ (p.beginLeg l).dbm = p.dbm ∧ (p.beginLeg l).sin = p.sin ∧
    (p.beginLeg l).hre = p.hre ∧ (p.beginLeg l).rtu.stack = p.rtu.stack ∧ (p.beginLeg l).rtu.overflow =
    p.rtu.overflow ∧ (p.beginLeg l).rtu.crossings = p.rtu.crossings ∧ (p.beginLeg l).rtu.applying =
    p.rtu.applying ∧ (p.beginLeg l).rtu.planDue = p.rtu.planDue ∧ (p.beginLeg l).rtu.planning =
    p.rtu.planning ∧ (p.beginLeg l).rtu.activity = p.rtu.activity ∧ (p.beginLeg l).rtu.params =
    p.rtu.params ∧ (p.beginLeg l).rtu.distance = p.rtu.distance ∧ (p.beginLeg l).rtu.finalApproach =
    p.rtu.finalApproach ∧ (p.beginLeg l).rtu.dockKey = p.rtu.dockKey ∧ (p.beginLeg l).rtu.attempts =
    p.rtu.attempts ∧ (p.beginLeg l).rtu.settle = p.rtu.settle ∧ (p.beginLeg l).rtu.copies = p.rtu.copies ∧
    (p.beginLeg l).tst = p.tst ∧ (p.beginLeg l).plp = p.plp ∧ (p.beginLeg l).nco = p.nco ∧ (p.beginLeg
    l).agenda.removed = p.agenda.removed ∧ (p.beginLeg l).agenda.starved = p.agenda.starved ∧ (p.beginLeg
    l).agenda.returning = p.agenda.returning ∧ (p.beginLeg l).agenda.period = p.agenda.period ∧
    (p.beginLeg l).agenda.walk = p.agenda.walk ∧ (p.beginLeg l).agenda.bus = p.agenda.bus ∧ (p.beginLeg
    l).agenda.store = p.agenda.store ∧ (p.beginLeg l).agenda.port = p.agenda.port ∧ (p.beginLeg
    l).agenda.held = p.agenda.held ∧ (p.beginLeg l).agenda.frames = p.agenda.frames ∧ (p.beginLeg l).clock
    = p.clock ∧ (p.beginLeg l).serial = p.serial ∧ (p.beginLeg l).free = p.free :=
  ⟨rfl, rfl, rfl, rfl, rfl, rfl, rfl, rfl, rfl, rfl, rfl, rfl, rfl, rfl, rfl, rfl, rfl, rfl, rfl, rfl,
   rfl, rfl, rfl, rfl, rfl, rfl, rfl, rfl, rfl, rfl, rfl, rfl, rfl, rfl, rfl, rfl, rfl, rfl⟩

@[simp] theorem Part.loadScrub_keeps (period : Nat) (p : Part) :
    (p.loadScrub period).fcu = p.fcu ∧ (p.loadScrub period).scr = p.scr ∧ (p.loadScrub period).ltr = p.ltr
    ∧ (p.loadScrub period).sq = p.sq ∧ (p.loadScrub period).msh = p.msh ∧ (p.loadScrub period).dbm = p.dbm
    ∧ (p.loadScrub period).sin = p.sin ∧ (p.loadScrub period).hre = p.hre ∧ (p.loadScrub period).rtu =
    p.rtu ∧ (p.loadScrub period).tst.poisoned = p.tst.poisoned ∧ (p.loadScrub period).tst.mode =
    p.tst.mode ∧ (p.loadScrub period).tst.pattern = p.tst.pattern ∧ (p.loadScrub period).tst.capture =
    p.tst.capture ∧ (p.loadScrub period).tst.log = p.tst.log ∧ (p.loadScrub period).tst.scrubPointer =
    p.tst.scrubPointer ∧ (p.loadScrub period).tst.waiting = p.tst.waiting ∧ (p.loadScrub
    period).tst.current = p.tst.current ∧ (p.loadScrub period).plp = p.plp ∧ (p.loadScrub period).nco =
    p.nco ∧ (p.loadScrub period).agenda = p.agenda ∧ (p.loadScrub period).clock = p.clock ∧ (p.loadScrub
    period).serial = p.serial ∧ (p.loadScrub period).free = p.free :=
  ⟨rfl, rfl, rfl, rfl, rfl, rfl, rfl, rfl, rfl, rfl, rfl, rfl, rfl, rfl, rfl, rfl, rfl, rfl, rfl, rfl,
   rfl, rfl, rfl⟩

/-- The shaper's stop leaves its odometry, its progress and its timer (R102). -/
@[simp] theorem Msh.stop_keeps (m : Msh) :
    m.stop.source = m.source ∧ m.stop.credited = m.credited ∧ m.stop.wheels = m.wheels ∧
    m.stop.odometer = m.odometer ∧ m.stop.odometerCarry = m.odometerCarry ∧ m.stop.progress = m.progress ∧
    m.stop.progressCarry = m.progressCarry ∧ m.stop.periodTimer = m.periodTimer ∧
    m.stop.kilotick = m.kilotick ∧ m.stop.maneuverSpeed = m.maneuverSpeed :=
  ⟨rfl, rfl, rfl, rfl, rfl, rfl, rfl, rfl, rfl, rfl⟩

/-- What the shaper's stop sets (R102). -/
@[simp] theorem Msh.stop_sets (m : Msh) :
    m.stop.previousLeft = 0 ∧ m.stop.previousRight = 0 ∧ m.stop.errorMemory = none := ⟨rfl, rfl, rfl⟩

/-- What an expiry's odometer credit leaves (R106). -/
@[simp] theorem Msh.creditOdometer_keeps (m : Msh) :
    m.creditOdometer.previousLeft = m.previousLeft ∧ m.creditOdometer.previousRight = m.previousRight ∧
    m.creditOdometer.errorMemory = m.errorMemory ∧ m.creditOdometer.source = m.source ∧
    m.creditOdometer.progress = m.progress ∧ m.creditOdometer.periodTimer = m.periodTimer ∧
    m.creditOdometer.computation = m.computation ∧ m.creditOdometer.kilotick = m.kilotick ∧
    m.creditOdometer.maneuverSpeed = m.maneuverSpeed :=
  ⟨rfl, rfl, rfl, rfl, rfl, rfl, rfl, rfl, rfl⟩

/-- What an entry into DOCKED leaves of the Return Unit (R171). -/
@[simp] theorem Rtu.docked_keeps (r : Rtu) :
    r.docked.applying = r.applying ∧ r.docked.planDue = r.planDue ∧ r.docked.planning = r.planning ∧
    r.docked.leg = r.leg ∧ r.docked.activity = r.activity ∧ r.docked.params = r.params ∧
    r.docked.distance = r.distance ∧ r.docked.finalApproach = r.finalApproach ∧
    r.docked.dockKey = r.dockKey ∧ r.docked.copies = r.copies :=
  ⟨rfl, rfl, rfl, rfl, rfl, rfl, rfl, rfl, rfl, rfl⟩

/-- What an entry into DOCKED clears (R171). -/
@[simp] theorem Rtu.docked_sets (r : Rtu) :
    r.docked.stack = [] ∧ r.docked.overflow = false ∧ r.docked.crossings = [] ∧ r.docked.attempts = 0 ∧
    r.docked.settle = 0 := ⟨rfl, rfl, rfl, rfl, rfl⟩

/-! ### One of a group of like things -/

@[simp] theorem Three_get_set_same {α : Type} (t : Three α) (i : Fin 3) (a : α) : (t.set i a).get i = a := by
  match i with
  | 0 => rfl
  | 1 => rfl
  | 2 => rfl

@[simp] theorem Three_get_set_other {α : Type} (t : Three α) (i j : Fin 3) (a : α) (h : j ≠ i) :
    (t.set i a).get j = t.get j := by
  match i, j with
  | 0, 0 => exact absurd rfl h
  | 1, 1 => exact absurd rfl h
  | 2, 2 => exact absurd rfl h
  | 0, 1 => rfl
  | 0, 2 => rfl
  | 1, 0 => rfl
  | 1, 2 => rfl
  | 2, 0 => rfl
  | 2, 1 => rfl

@[simp] theorem Four_get_set_same {α : Type} (t : Four α) (c : NoticeClass) (a : α) :
    (t.set c a).get c = a := by
  cases c <;> rfl

@[simp] theorem Four_get_set_other {α : Type} (t : Four α) (c d : NoticeClass) (a : α) (h : d ≠ c) :
    (t.set c a).get d = t.get d := by
  cases c <;> cases d <;> first | exact absurd rfl h | rfl

/-- A node record that an update has changed. -/
@[simp] theorem Part.node_mapNode_same (n : Fin 3) (f : Node → Node) (p : Part) :
    (p.mapNode n f).node n = f (p.node n) := by
  simp [Part.mapNode, Part.node]

/-- The other node records are unchanged by it. -/
@[simp] theorem Part.node_mapNode_other (n m : Fin 3) (f : Node → Node) (p : Part) (h : m ≠ n) :
    (p.mapNode n f).node m = p.node m := by
  simp [Part.mapNode, Part.node, h]

end Sys2Proof.Machine
end

