-- ==== Sys2Proof/Laws/QueueKeeps.lean ====
section
/-! SUPPORT. What the shared operations, the segment queue and the bus requests leave of the part. -/

namespace Sys2Proof.Machine

@[simp] theorem Part.emit_keeps (c : NoticeClass) (p : Part) :
    (p.emit c).fcu = p.fcu ∧ (p.emit c).scr = p.scr ∧ (p.emit c).ltr = p.ltr ∧ (p.emit c).sq = p.sq ∧
    (p.emit c).msh = p.msh ∧ (p.emit c).dbm = p.dbm ∧ (p.emit c).sin = p.sin ∧ (p.emit c).hre = p.hre ∧
    (p.emit c).rtu = p.rtu ∧ (p.emit c).tst = p.tst ∧ (p.emit c).plp.hunt = p.plp.hunt ∧ (p.emit c).plp.rx
    = p.plp.rx ∧ (p.emit c).plp.op = p.plp.op ∧ (p.emit c).plp.restarting = p.plp.restarting ∧ (p.emit
    c).nco.urgentLevel = p.nco.urgentLevel ∧ (p.emit c).agenda = p.agenda ∧ (p.emit c).clock = p.clock ∧
    (p.emit c).serial = p.serial ∧ (p.emit c).free = p.free := by
  unfold Part.emit
  (try dsimp only)
  (repeat' split) <;> simp

@[simp] theorem Part.emitCause_keeps (c : NoticeClass) (p : Part) :
    (p.emitCause c).fcu = p.fcu ∧ (p.emitCause c).scr = p.scr ∧ (p.emitCause c).ltr = p.ltr ∧ (p.emitCause
    c).sq = p.sq ∧ (p.emitCause c).msh = p.msh ∧ (p.emitCause c).dbm = p.dbm ∧ (p.emitCause c).sin = p.sin
    ∧ (p.emitCause c).hre = p.hre ∧ (p.emitCause c).rtu = p.rtu ∧ (p.emitCause c).tst = p.tst ∧
    (p.emitCause c).plp.hunt = p.plp.hunt ∧ (p.emitCause c).plp.rx = p.plp.rx ∧ (p.emitCause c).plp.op =
    p.plp.op ∧ (p.emitCause c).plp.restarting = p.plp.restarting ∧ (p.emitCause c).nco.urgentLevel =
    p.nco.urgentLevel ∧ (p.emitCause c).agenda = p.agenda ∧ (p.emitCause c).clock = p.clock ∧ (p.emitCause
    c).serial = p.serial ∧ (p.emitCause c).free = p.free := by
  unfold Part.emitCause
  (try dsimp only)
  (repeat' split) <;> simp

@[simp] theorem Part.addEntryUrgent_keeps (urgent : Bool) (kind : EntryKind) (subject value : Nat) (p :
Part) :
    (p.addEntryUrgent urgent kind subject value).fcu = p.fcu ∧ (p.addEntryUrgent urgent kind subject
    value).scr = p.scr ∧ (p.addEntryUrgent urgent kind subject value).ltr = p.ltr ∧ (p.addEntryUrgent
    urgent kind subject value).sq = p.sq ∧ (p.addEntryUrgent urgent kind subject value).msh = p.msh ∧
    (p.addEntryUrgent urgent kind subject value).dbm = p.dbm ∧ (p.addEntryUrgent urgent kind subject
    value).sin = p.sin ∧ (p.addEntryUrgent urgent kind subject value).hre = p.hre ∧ (p.addEntryUrgent
    urgent kind subject value).rtu = p.rtu ∧ (p.addEntryUrgent urgent kind subject value).tst = p.tst ∧
    (p.addEntryUrgent urgent kind subject value).plp.hunt = p.plp.hunt ∧ (p.addEntryUrgent urgent kind
    subject value).plp.rx = p.plp.rx ∧ (p.addEntryUrgent urgent kind subject value).plp.op = p.plp.op ∧
    (p.addEntryUrgent urgent kind subject value).plp.restarting = p.plp.restarting ∧ (p.addEntryUrgent
    urgent kind subject value).nco.urgentLevel = p.nco.urgentLevel ∧ (p.addEntryUrgent urgent kind subject
    value).agenda = p.agenda ∧ (p.addEntryUrgent urgent kind subject value).clock = p.clock ∧
    (p.addEntryUrgent urgent kind subject value).serial = p.serial ∧ (p.addEntryUrgent urgent kind subject
    value).free = p.free := by
  unfold Part.addEntryUrgent
  (try dsimp only)
  (repeat' split) <;> simp

@[simp] theorem Part.addEntry_keeps (kind : EntryKind) (subject value : Nat) (p : Part) :
    (p.addEntry kind subject value).fcu = p.fcu ∧ (p.addEntry kind subject value).scr = p.scr ∧
    (p.addEntry kind subject value).ltr = p.ltr ∧ (p.addEntry kind subject value).sq = p.sq ∧ (p.addEntry
    kind subject value).msh = p.msh ∧ (p.addEntry kind subject value).dbm = p.dbm ∧ (p.addEntry kind
    subject value).sin = p.sin ∧ (p.addEntry kind subject value).hre = p.hre ∧ (p.addEntry kind subject
    value).rtu = p.rtu ∧ (p.addEntry kind subject value).tst = p.tst ∧ (p.addEntry kind subject
    value).plp.hunt = p.plp.hunt ∧ (p.addEntry kind subject value).plp.rx = p.plp.rx ∧ (p.addEntry kind
    subject value).plp.op = p.plp.op ∧ (p.addEntry kind subject value).plp.restarting = p.plp.restarting ∧
    (p.addEntry kind subject value).nco.urgentLevel = p.nco.urgentLevel ∧ (p.addEntry kind subject
    value).agenda = p.agenda ∧ (p.addEntry kind subject value).clock = p.clock ∧ (p.addEntry kind subject
    value).serial = p.serial ∧ (p.addEntry kind subject value).free = p.free := by
  unfold Part.addEntry
  (try dsimp only)
  (repeat' split) <;> simp

@[simp] theorem Part.addModeChanged_keeps (p : Part) :
    p.addModeChanged.fcu = p.fcu ∧ p.addModeChanged.scr = p.scr ∧ p.addModeChanged.ltr = p.ltr ∧
    p.addModeChanged.sq = p.sq ∧ p.addModeChanged.msh = p.msh ∧ p.addModeChanged.dbm = p.dbm ∧
    p.addModeChanged.sin = p.sin ∧ p.addModeChanged.hre = p.hre ∧ p.addModeChanged.rtu = p.rtu ∧
    p.addModeChanged.tst = p.tst ∧ p.addModeChanged.plp.hunt = p.plp.hunt ∧ p.addModeChanged.plp.rx =
    p.plp.rx ∧ p.addModeChanged.plp.op = p.plp.op ∧ p.addModeChanged.plp.restarting = p.plp.restarting ∧
    p.addModeChanged.nco.urgentLevel = p.nco.urgentLevel ∧ p.addModeChanged.agenda = p.agenda ∧
    p.addModeChanged.clock = p.clock ∧ p.addModeChanged.serial = p.serial ∧ p.addModeChanged.free = p.free
    := by
  unfold Part.addModeChanged
  (try dsimp only)
  (repeat' split) <;> simp

@[simp] theorem Part.addHazard_keeps (outcome : EntryKind) (r : Response) (p : Part) :
    (p.addHazard outcome r).fcu = p.fcu ∧ (p.addHazard outcome r).scr = p.scr ∧ (p.addHazard outcome
    r).ltr = p.ltr ∧ (p.addHazard outcome r).sq = p.sq ∧ (p.addHazard outcome r).msh = p.msh ∧
    (p.addHazard outcome r).dbm = p.dbm ∧ (p.addHazard outcome r).sin = p.sin ∧ (p.addHazard outcome
    r).hre = p.hre ∧ (p.addHazard outcome r).rtu = p.rtu ∧ (p.addHazard outcome r).tst = p.tst ∧
    (p.addHazard outcome r).plp.hunt = p.plp.hunt ∧ (p.addHazard outcome r).plp.rx = p.plp.rx ∧
    (p.addHazard outcome r).plp.op = p.plp.op ∧ (p.addHazard outcome r).plp.restarting = p.plp.restarting
    ∧ (p.addHazard outcome r).nco.urgentLevel = p.nco.urgentLevel ∧ (p.addHazard outcome r).agenda =
    p.agenda ∧ (p.addHazard outcome r).clock = p.clock ∧ (p.addHazard outcome r).serial = p.serial ∧
    (p.addHazard outcome r).free = p.free := by
  unfold Part.addHazard
  (try dsimp only)
  (repeat' split) <;> simp

@[simp] theorem Part.addSegDone_keeps (g : Segment) (e : Ending) (distance : Nat) (p : Part) :
    (p.addSegDone g e distance).fcu = p.fcu ∧ (p.addSegDone g e distance).scr = p.scr ∧ (p.addSegDone g e
    distance).ltr = p.ltr ∧ (p.addSegDone g e distance).sq = p.sq ∧ (p.addSegDone g e distance).msh =
    p.msh ∧ (p.addSegDone g e distance).dbm = p.dbm ∧ (p.addSegDone g e distance).sin = p.sin ∧
    (p.addSegDone g e distance).hre = p.hre ∧ (p.addSegDone g e distance).rtu = p.rtu ∧ (p.addSegDone g e
    distance).tst = p.tst ∧ (p.addSegDone g e distance).plp.hunt = p.plp.hunt ∧ (p.addSegDone g e
    distance).plp.rx = p.plp.rx ∧ (p.addSegDone g e distance).plp.op = p.plp.op ∧ (p.addSegDone g e
    distance).plp.restarting = p.plp.restarting ∧ (p.addSegDone g e distance).nco.urgentLevel =
    p.nco.urgentLevel ∧ (p.addSegDone g e distance).agenda = p.agenda ∧ (p.addSegDone g e distance).clock
    = p.clock ∧ (p.addSegDone g e distance).serial = p.serial ∧ (p.addSegDone g e distance).free = p.free
    := by
  unfold Part.addSegDone
  (try dsimp only)
  (repeat' split) <;> simp

@[simp] theorem Part.endHead_keeps (e : Ending) (distance : Nat) (p : Part) :
    (p.endHead e distance).fcu = p.fcu ∧ (p.endHead e distance).scr = p.scr ∧ (p.endHead e distance).ltr =
    p.ltr ∧ (p.endHead e distance).sq.refillArmed = p.sq.refillArmed ∧ (p.endHead e
    distance).sq.starvedArmed = p.sq.starvedArmed ∧ (p.endHead e distance).sq.refillMark = p.sq.refillMark
    ∧ (p.endHead e distance).msh = p.msh ∧ (p.endHead e distance).dbm = p.dbm ∧ (p.endHead e distance).sin
    = p.sin ∧ (p.endHead e distance).hre = p.hre ∧ (p.endHead e distance).rtu = p.rtu ∧ (p.endHead e
    distance).tst = p.tst ∧ (p.endHead e distance).plp.hunt = p.plp.hunt ∧ (p.endHead e distance).plp.rx =
    p.plp.rx ∧ (p.endHead e distance).plp.op = p.plp.op ∧ (p.endHead e distance).plp.restarting =
    p.plp.restarting ∧ (p.endHead e distance).nco.urgentLevel = p.nco.urgentLevel ∧ (p.endHead e
    distance).agenda.returning = p.agenda.returning ∧ (p.endHead e distance).agenda.period =
    p.agenda.period ∧ (p.endHead e distance).agenda.walk = p.agenda.walk ∧ (p.endHead e
    distance).agenda.bus = p.agenda.bus ∧ (p.endHead e distance).agenda.store = p.agenda.store ∧
    (p.endHead e distance).agenda.port = p.agenda.port ∧ (p.endHead e distance).agenda.held =
    p.agenda.held ∧ (p.endHead e distance).agenda.frames = p.agenda.frames ∧ (p.endHead e distance).clock
    = p.clock ∧ (p.endHead e distance).serial = p.serial ∧ (p.endHead e distance).free = p.free := by
  unfold Part.endHead
  (try dsimp only)
  (repeat' split) <;> simp

@[simp] theorem Part.activateFrom_keeps (x0 : Nat) (p : Part) :
    (p.activateFrom x0).fcu.mode = p.fcu.mode ∧ (p.activateFrom x0).fcu.resume = p.fcu.resume ∧
    (p.activateFrom x0).fcu.stopCause = p.fcu.stopCause ∧ (p.activateFrom x0).fcu.hazardLevel =
    p.fcu.hazardLevel ∧ (p.activateFrom x0).fcu.permission = p.fcu.permission ∧ (p.activateFrom
    x0).fcu.keepSilent = p.fcu.keepSilent ∧ (p.activateFrom x0).fcu.keepTimer = p.fcu.keepTimer ∧
    (p.activateFrom x0).fcu.keepLimit = p.fcu.keepLimit ∧ (p.activateFrom x0).fcu.silentAction =
    p.fcu.silentAction ∧ (p.activateFrom x0).fcu.zoneBladeMax = p.fcu.zoneBladeMax ∧ (p.activateFrom
    x0).fcu.levelToSend = p.fcu.levelToSend ∧ (p.activateFrom x0).scr = p.scr ∧ (p.activateFrom x0).ltr =
    p.ltr ∧ (p.activateFrom x0).sq.refillArmed = p.sq.refillArmed ∧ (p.activateFrom x0).sq.starvedArmed =
    p.sq.starvedArmed ∧ (p.activateFrom x0).sq.refillMark = p.sq.refillMark ∧ (p.activateFrom
    x0).msh.previousLeft = p.msh.previousLeft ∧ (p.activateFrom x0).msh.previousRight =
    p.msh.previousRight ∧ (p.activateFrom x0).msh.errorMemory = p.msh.errorMemory ∧ (p.activateFrom
    x0).msh.source = p.msh.source ∧ (p.activateFrom x0).msh.credited = p.msh.credited ∧ (p.activateFrom
    x0).msh.wheels = p.msh.wheels ∧ (p.activateFrom x0).msh.odometer = p.msh.odometer ∧ (p.activateFrom
    x0).msh.odometerCarry = p.msh.odometerCarry ∧ (p.activateFrom x0).msh.progressCarry =
    p.msh.progressCarry ∧ (p.activateFrom x0).msh.periodTimer = p.msh.periodTimer ∧ (p.activateFrom
    x0).msh.computation = p.msh.computation ∧ (p.activateFrom x0).msh.kilotick = p.msh.kilotick ∧
    (p.activateFrom x0).msh.maneuverSpeed = p.msh.maneuverSpeed ∧
    (p.activateFrom x0).dbm.bus = p.dbm.bus ∧ (p.activateFrom x0).dbm.number = p.dbm.number ∧
    (p.activateFrom x0).dbm.resetStops = p.dbm.resetStops ∧ (p.activateFrom x0).dbm.responseLimit =
    p.dbm.responseLimit ∧ (p.activateFrom x0).dbm.holdLimit = p.dbm.holdLimit ∧ (p.activateFrom x0).sin =
    p.sin ∧ (p.activateFrom x0).hre = p.hre ∧ (p.activateFrom x0).rtu = p.rtu ∧ (p.activateFrom x0).tst =
    p.tst ∧ (p.activateFrom x0).plp.hunt = p.plp.hunt ∧ (p.activateFrom x0).plp.rx = p.plp.rx ∧
    (p.activateFrom x0).plp.op = p.plp.op ∧ (p.activateFrom x0).plp.restarting = p.plp.restarting ∧
    (p.activateFrom x0).nco.urgentLevel = p.nco.urgentLevel ∧ (p.activateFrom x0).agenda.returning =
    p.agenda.returning ∧ (p.activateFrom x0).agenda.period = p.agenda.period ∧ (p.activateFrom
    x0).agenda.walk = p.agenda.walk ∧ (p.activateFrom x0).agenda.store = p.agenda.store ∧ (p.activateFrom
    x0).agenda.port = p.agenda.port ∧ (p.activateFrom x0).agenda.held = p.agenda.held ∧ (p.activateFrom
    x0).agenda.frames = p.agenda.frames ∧ (p.activateFrom x0).clock = p.clock ∧ (p.activateFrom x0).serial
    = p.serial ∧ (p.activateFrom x0).free = p.free := by
  induction x0 generalizing p with
  | zero => simp [Part.activateFrom]
  | succ n ih => simp only [Part.activateFrom]; (repeat' split) <;> simp_all

@[simp] theorem Part.activateHead_keeps (p : Part) :
    p.activateHead.fcu.mode = p.fcu.mode ∧ p.activateHead.fcu.resume = p.fcu.resume ∧
    p.activateHead.fcu.stopCause = p.fcu.stopCause ∧ p.activateHead.fcu.hazardLevel = p.fcu.hazardLevel ∧
    p.activateHead.fcu.permission = p.fcu.permission ∧ p.activateHead.fcu.keepSilent = p.fcu.keepSilent ∧
    p.activateHead.fcu.keepTimer = p.fcu.keepTimer ∧ p.activateHead.fcu.keepLimit = p.fcu.keepLimit ∧
    p.activateHead.fcu.silentAction = p.fcu.silentAction ∧ p.activateHead.fcu.zoneBladeMax =
    p.fcu.zoneBladeMax ∧ p.activateHead.fcu.levelToSend = p.fcu.levelToSend ∧ p.activateHead.scr = p.scr ∧
    p.activateHead.ltr = p.ltr ∧ p.activateHead.sq.refillArmed = p.sq.refillArmed ∧
    p.activateHead.sq.starvedArmed = p.sq.starvedArmed ∧ p.activateHead.sq.refillMark = p.sq.refillMark ∧
    p.activateHead.msh.previousLeft = p.msh.previousLeft ∧ p.activateHead.msh.previousRight =
    p.msh.previousRight ∧ p.activateHead.msh.errorMemory = p.msh.errorMemory ∧ p.activateHead.msh.source =
    p.msh.source ∧ p.activateHead.msh.credited = p.msh.credited ∧ p.activateHead.msh.wheels = p.msh.wheels
    ∧ p.activateHead.msh.odometer = p.msh.odometer ∧ p.activateHead.msh.odometerCarry =
    p.msh.odometerCarry ∧ p.activateHead.msh.progressCarry = p.msh.progressCarry ∧
    p.activateHead.msh.periodTimer = p.msh.periodTimer ∧ p.activateHead.msh.computation =
    p.msh.computation ∧ p.activateHead.msh.kilotick = p.msh.kilotick ∧ p.activateHead.msh.maneuverSpeed =
    p.msh.maneuverSpeed ∧ p.activateHead.dbm.bus = p.dbm.bus
    ∧ p.activateHead.dbm.number = p.dbm.number ∧ p.activateHead.dbm.resetStops = p.dbm.resetStops ∧
    p.activateHead.dbm.responseLimit = p.dbm.responseLimit ∧ p.activateHead.dbm.holdLimit =
    p.dbm.holdLimit ∧ p.activateHead.sin = p.sin ∧ p.activateHead.hre = p.hre ∧ p.activateHead.rtu = p.rtu
    ∧ p.activateHead.tst = p.tst ∧ p.activateHead.plp.hunt = p.plp.hunt ∧ p.activateHead.plp.rx = p.plp.rx
    ∧ p.activateHead.plp.op = p.plp.op ∧ p.activateHead.plp.restarting = p.plp.restarting ∧
    p.activateHead.nco.urgentLevel = p.nco.urgentLevel ∧ p.activateHead.agenda.returning =
    p.agenda.returning ∧ p.activateHead.agenda.period = p.agenda.period ∧ p.activateHead.agenda.walk =
    p.agenda.walk ∧ p.activateHead.agenda.store = p.agenda.store ∧ p.activateHead.agenda.port =
    p.agenda.port ∧ p.activateHead.agenda.held = p.agenda.held ∧ p.activateHead.agenda.frames =
    p.agenda.frames ∧ p.activateHead.clock = p.clock ∧ p.activateHead.serial = p.serial ∧
    p.activateHead.free = p.free := by
  unfold Part.activateHead
  (try dsimp only)
  (repeat' split) <;> simp

@[simp] theorem Part.completeActive_keeps (p : Part) :
    p.completeActive.fcu.mode = p.fcu.mode ∧ p.completeActive.fcu.resume = p.fcu.resume ∧
    p.completeActive.fcu.stopCause = p.fcu.stopCause ∧ p.completeActive.fcu.hazardLevel =
    p.fcu.hazardLevel ∧ p.completeActive.fcu.permission = p.fcu.permission ∧
    p.completeActive.fcu.keepSilent = p.fcu.keepSilent ∧ p.completeActive.fcu.keepTimer = p.fcu.keepTimer
    ∧ p.completeActive.fcu.keepLimit = p.fcu.keepLimit ∧ p.completeActive.fcu.silentAction =
    p.fcu.silentAction ∧ p.completeActive.fcu.zoneBladeMax = p.fcu.zoneBladeMax ∧
    p.completeActive.fcu.levelToSend = p.fcu.levelToSend ∧ p.completeActive.scr = p.scr ∧
    p.completeActive.ltr = p.ltr ∧ p.completeActive.sq.refillArmed = p.sq.refillArmed ∧
    p.completeActive.sq.starvedArmed = p.sq.starvedArmed ∧ p.completeActive.sq.refillMark =
    p.sq.refillMark ∧ p.completeActive.msh.previousLeft = p.msh.previousLeft ∧
    p.completeActive.msh.previousRight = p.msh.previousRight ∧ p.completeActive.msh.errorMemory =
    p.msh.errorMemory ∧ p.completeActive.msh.source = p.msh.source ∧ p.completeActive.msh.credited =
    p.msh.credited ∧ p.completeActive.msh.wheels = p.msh.wheels ∧ p.completeActive.msh.odometer =
    p.msh.odometer ∧ p.completeActive.msh.odometerCarry = p.msh.odometerCarry ∧
    p.completeActive.msh.progressCarry = p.msh.progressCarry ∧ p.completeActive.msh.periodTimer =
    p.msh.periodTimer ∧ p.completeActive.msh.computation = p.msh.computation ∧
    p.completeActive.msh.kilotick = p.msh.kilotick ∧ p.completeActive.msh.maneuverSpeed =
    p.msh.maneuverSpeed ∧ p.completeActive.dbm.bus = p.dbm.bus ∧
    p.completeActive.dbm.number = p.dbm.number ∧ p.completeActive.dbm.resetStops = p.dbm.resetStops ∧
    p.completeActive.dbm.responseLimit = p.dbm.responseLimit ∧ p.completeActive.dbm.holdLimit =
    p.dbm.holdLimit ∧ p.completeActive.sin = p.sin ∧ p.completeActive.hre = p.hre ∧ p.completeActive.rtu =
    p.rtu ∧ p.completeActive.tst = p.tst ∧ p.completeActive.plp.hunt = p.plp.hunt ∧
    p.completeActive.plp.rx = p.plp.rx ∧ p.completeActive.plp.op = p.plp.op ∧
    p.completeActive.plp.restarting = p.plp.restarting ∧ p.completeActive.nco.urgentLevel =
    p.nco.urgentLevel ∧ p.completeActive.agenda.returning = p.agenda.returning ∧
    p.completeActive.agenda.period = p.agenda.period ∧ p.completeActive.agenda.walk = p.agenda.walk ∧
    p.completeActive.agenda.store = p.agenda.store ∧ p.completeActive.agenda.port = p.agenda.port ∧
    p.completeActive.agenda.held = p.agenda.held ∧ p.completeActive.agenda.frames = p.agenda.frames ∧
    p.completeActive.clock = p.clock ∧ p.completeActive.serial = p.serial ∧ p.completeActive.free = p.free
    := by
  unfold Part.completeActive
  (try dsimp only)
  (repeat' split) <;> simp

@[simp] theorem Part.markCut_keeps (p : Part) :
    p.markCut.fcu = p.fcu ∧ p.markCut.scr = p.scr ∧ p.markCut.ltr = p.ltr ∧ p.markCut.sq.active =
    p.sq.active ∧ p.markCut.sq.refillArmed = p.sq.refillArmed ∧ p.markCut.sq.starvedArmed =
    p.sq.starvedArmed ∧ p.markCut.sq.refillMark = p.sq.refillMark ∧ p.markCut.msh = p.msh ∧ p.markCut.dbm
    = p.dbm ∧ p.markCut.sin = p.sin ∧ p.markCut.hre = p.hre ∧ p.markCut.rtu = p.rtu ∧ p.markCut.tst =
    p.tst ∧ p.markCut.plp = p.plp ∧ p.markCut.nco = p.nco ∧ p.markCut.agenda = p.agenda ∧ p.markCut.clock
    = p.clock ∧ p.markCut.serial = p.serial ∧ p.markCut.free = p.free := by
  unfold Part.markCut
  (try dsimp only)
  (repeat' split) <;> simp

@[simp] theorem Part.cutMarked_keeps (p : Part) :
    p.cutMarked.fcu.mode = p.fcu.mode ∧ p.cutMarked.fcu.resume = p.fcu.resume ∧ p.cutMarked.fcu.stopCause
    = p.fcu.stopCause ∧ p.cutMarked.fcu.hazardLevel = p.fcu.hazardLevel ∧ p.cutMarked.fcu.permission =
    p.fcu.permission ∧ p.cutMarked.fcu.keepSilent = p.fcu.keepSilent ∧ p.cutMarked.fcu.keepTimer =
    p.fcu.keepTimer ∧ p.cutMarked.fcu.keepLimit = p.fcu.keepLimit ∧ p.cutMarked.fcu.silentAction =
    p.fcu.silentAction ∧ p.cutMarked.fcu.zoneBladeMax = p.fcu.zoneBladeMax ∧ p.cutMarked.fcu.levelToSend =
    p.fcu.levelToSend ∧ p.cutMarked.scr = p.scr ∧ p.cutMarked.ltr = p.ltr ∧ p.cutMarked.sq.refillArmed =
    p.sq.refillArmed ∧ p.cutMarked.sq.starvedArmed = p.sq.starvedArmed ∧ p.cutMarked.sq.refillMark =
    p.sq.refillMark ∧ p.cutMarked.msh.previousLeft = p.msh.previousLeft ∧ p.cutMarked.msh.previousRight =
    p.msh.previousRight ∧ p.cutMarked.msh.errorMemory = p.msh.errorMemory ∧ p.cutMarked.msh.source =
    p.msh.source ∧ p.cutMarked.msh.credited = p.msh.credited ∧ p.cutMarked.msh.wheels = p.msh.wheels ∧
    p.cutMarked.msh.odometer = p.msh.odometer ∧ p.cutMarked.msh.odometerCarry = p.msh.odometerCarry ∧
    p.cutMarked.msh.progressCarry = p.msh.progressCarry ∧ p.cutMarked.msh.periodTimer = p.msh.periodTimer
    ∧ p.cutMarked.msh.computation = p.msh.computation ∧ p.cutMarked.msh.kilotick = p.msh.kilotick ∧
    p.cutMarked.msh.maneuverSpeed = p.msh.maneuverSpeed ∧
    p.cutMarked.dbm.bus = p.dbm.bus ∧ p.cutMarked.dbm.number = p.dbm.number ∧ p.cutMarked.dbm.resetStops =
    p.dbm.resetStops ∧ p.cutMarked.dbm.responseLimit = p.dbm.responseLimit ∧ p.cutMarked.dbm.holdLimit =
    p.dbm.holdLimit ∧ p.cutMarked.sin = p.sin ∧ p.cutMarked.hre = p.hre ∧ p.cutMarked.rtu = p.rtu ∧
    p.cutMarked.tst = p.tst ∧ p.cutMarked.plp.hunt = p.plp.hunt ∧ p.cutMarked.plp.rx = p.plp.rx ∧
    p.cutMarked.plp.op = p.plp.op ∧ p.cutMarked.plp.restarting = p.plp.restarting ∧
    p.cutMarked.nco.urgentLevel = p.nco.urgentLevel ∧ p.cutMarked.agenda.returning = p.agenda.returning ∧
    p.cutMarked.agenda.period = p.agenda.period ∧ p.cutMarked.agenda.walk = p.agenda.walk ∧
    p.cutMarked.agenda.store = p.agenda.store ∧ p.cutMarked.agenda.port = p.agenda.port ∧
    p.cutMarked.agenda.held = p.agenda.held ∧ p.cutMarked.agenda.frames = p.agenda.frames ∧
    p.cutMarked.clock = p.clock ∧ p.cutMarked.serial = p.serial ∧ p.cutMarked.free = p.free := by
  unfold Part.cutMarked
  (try dsimp only)
  (repeat' split) <;> simp

@[simp] theorem Part.abandonAll_keeps (x0 : Nat) (p : Part) :
    (p.abandonAll x0).fcu = p.fcu ∧ (p.abandonAll x0).scr = p.scr ∧ (p.abandonAll x0).ltr = p.ltr ∧
    (p.abandonAll x0).sq.refillArmed = p.sq.refillArmed ∧ (p.abandonAll x0).sq.starvedArmed =
    p.sq.starvedArmed ∧ (p.abandonAll x0).sq.refillMark = p.sq.refillMark ∧ (p.abandonAll x0).msh = p.msh
    ∧ (p.abandonAll x0).dbm = p.dbm ∧ (p.abandonAll x0).sin = p.sin ∧ (p.abandonAll x0).hre = p.hre ∧
    (p.abandonAll x0).rtu = p.rtu ∧ (p.abandonAll x0).tst = p.tst ∧ (p.abandonAll x0).plp.hunt =
    p.plp.hunt ∧ (p.abandonAll x0).plp.rx = p.plp.rx ∧ (p.abandonAll x0).plp.op = p.plp.op ∧ (p.abandonAll
    x0).plp.restarting = p.plp.restarting ∧ (p.abandonAll x0).nco.urgentLevel = p.nco.urgentLevel ∧
    (p.abandonAll x0).agenda.returning = p.agenda.returning ∧ (p.abandonAll x0).agenda.period =
    p.agenda.period ∧ (p.abandonAll x0).agenda.walk = p.agenda.walk ∧ (p.abandonAll x0).agenda.bus =
    p.agenda.bus ∧ (p.abandonAll x0).agenda.store = p.agenda.store ∧ (p.abandonAll x0).agenda.port =
    p.agenda.port ∧ (p.abandonAll x0).agenda.held = p.agenda.held ∧ (p.abandonAll x0).agenda.frames =
    p.agenda.frames ∧ (p.abandonAll x0).clock = p.clock ∧ (p.abandonAll x0).serial = p.serial ∧
    (p.abandonAll x0).free = p.free := by
  induction x0 generalizing p with
  | zero => simp [Part.abandonAll]
  | succ n ih => simp only [Part.abandonAll]; (repeat' split) <;> simp_all

@[simp] theorem Part.flush_keeps (p : Part) :
    p.flush.fcu = p.fcu ∧ p.flush.scr = p.scr ∧ p.flush.ltr = p.ltr ∧ p.flush.sq.refillArmed =
    p.sq.refillArmed ∧ p.flush.sq.starvedArmed = p.sq.starvedArmed ∧ p.flush.sq.refillMark =
    p.sq.refillMark ∧ p.flush.msh = p.msh ∧ p.flush.dbm = p.dbm ∧ p.flush.sin = p.sin ∧ p.flush.hre =
    p.hre ∧ p.flush.rtu = p.rtu ∧ p.flush.tst = p.tst ∧ p.flush.plp.hunt = p.plp.hunt ∧ p.flush.plp.rx =
    p.plp.rx ∧ p.flush.plp.op = p.plp.op ∧ p.flush.plp.restarting = p.plp.restarting ∧
    p.flush.nco.urgentLevel = p.nco.urgentLevel ∧ p.flush.agenda.returning = p.agenda.returning ∧
    p.flush.agenda.period = p.agenda.period ∧ p.flush.agenda.walk = p.agenda.walk ∧ p.flush.agenda.bus =
    p.agenda.bus ∧ p.flush.agenda.store = p.agenda.store ∧ p.flush.agenda.port = p.agenda.port ∧
    p.flush.agenda.held = p.agenda.held ∧ p.flush.agenda.frames = p.agenda.frames ∧ p.flush.clock =
    p.clock ∧ p.flush.serial = p.serial ∧ p.flush.free = p.free := by
  unfold Part.flush
  (try dsimp only)
  (repeat' split) <;> simp

@[simp] theorem Part.place_keeps (segments : List Segment) (p : Part) :
    (p.place segments).fcu.mode = p.fcu.mode ∧ (p.place segments).fcu.resume = p.fcu.resume ∧ (p.place
    segments).fcu.stopCause = p.fcu.stopCause ∧ (p.place segments).fcu.hazardLevel = p.fcu.hazardLevel ∧
    (p.place segments).fcu.permission = p.fcu.permission ∧ (p.place segments).fcu.keepSilent =
    p.fcu.keepSilent ∧ (p.place segments).fcu.keepTimer = p.fcu.keepTimer ∧ (p.place
    segments).fcu.keepLimit = p.fcu.keepLimit ∧ (p.place segments).fcu.silentAction = p.fcu.silentAction ∧
    (p.place segments).fcu.zoneBladeMax = p.fcu.zoneBladeMax ∧ (p.place segments).fcu.levelToSend =
    p.fcu.levelToSend ∧ (p.place segments).scr = p.scr ∧ (p.place segments).ltr = p.ltr ∧ (p.place
    segments).sq.refillMark = p.sq.refillMark ∧ (p.place segments).msh.previousLeft = p.msh.previousLeft ∧
    (p.place segments).msh.previousRight = p.msh.previousRight ∧ (p.place segments).msh.errorMemory =
    p.msh.errorMemory ∧ (p.place segments).msh.source = p.msh.source ∧ (p.place segments).msh.credited =
    p.msh.credited ∧ (p.place segments).msh.wheels = p.msh.wheels ∧ (p.place segments).msh.odometer =
    p.msh.odometer ∧ (p.place segments).msh.odometerCarry = p.msh.odometerCarry ∧ (p.place
    segments).msh.progressCarry = p.msh.progressCarry ∧ (p.place segments).msh.periodTimer =
    p.msh.periodTimer ∧ (p.place segments).msh.computation = p.msh.computation ∧ (p.place
    segments).msh.kilotick = p.msh.kilotick ∧ (p.place
    segments).msh.maneuverSpeed = p.msh.maneuverSpeed ∧ (p.place segments).dbm.bus = p.dbm.bus ∧ (p.place
    segments).dbm.number = p.dbm.number ∧ (p.place segments).dbm.resetStops = p.dbm.resetStops ∧ (p.place
    segments).dbm.responseLimit = p.dbm.responseLimit ∧ (p.place segments).dbm.holdLimit = p.dbm.holdLimit
    ∧ (p.place segments).sin = p.sin ∧ (p.place segments).hre = p.hre ∧ (p.place segments).rtu = p.rtu ∧
    (p.place segments).tst = p.tst ∧ (p.place segments).plp.hunt = p.plp.hunt ∧ (p.place segments).plp.rx
    = p.plp.rx ∧ (p.place segments).plp.op = p.plp.op ∧ (p.place segments).plp.restarting =
    p.plp.restarting ∧ (p.place segments).nco.urgentLevel = p.nco.urgentLevel ∧ (p.place
    segments).agenda.returning = p.agenda.returning ∧ (p.place segments).agenda.period = p.agenda.period ∧
    (p.place segments).agenda.walk = p.agenda.walk ∧ (p.place segments).agenda.store = p.agenda.store ∧
    (p.place segments).agenda.port = p.agenda.port ∧ (p.place segments).agenda.held = p.agenda.held ∧
    (p.place segments).agenda.frames = p.agenda.frames ∧ (p.place segments).clock = p.clock ∧ (p.place
    segments).free = p.free := by
  unfold Part.place
  (try dsimp only)
  (repeat' split) <;> simp

@[simp] theorem Part.refillTest_keeps (p : Part) :
    p.refillTest.fcu = p.fcu ∧ p.refillTest.scr = p.scr ∧ p.refillTest.ltr = p.ltr ∧ p.refillTest.sq.queue
    = p.sq.queue ∧ p.refillTest.sq.active = p.sq.active ∧ p.refillTest.sq.starvedArmed = p.sq.starvedArmed
    ∧ p.refillTest.sq.refillMark = p.sq.refillMark ∧ p.refillTest.msh = p.msh ∧ p.refillTest.dbm = p.dbm ∧
    p.refillTest.sin = p.sin ∧ p.refillTest.hre = p.hre ∧ p.refillTest.rtu = p.rtu ∧ p.refillTest.tst =
    p.tst ∧ p.refillTest.plp.hunt = p.plp.hunt ∧ p.refillTest.plp.rx = p.plp.rx ∧ p.refillTest.plp.op =
    p.plp.op ∧ p.refillTest.plp.restarting = p.plp.restarting ∧ p.refillTest.nco.urgentLevel =
    p.nco.urgentLevel ∧ p.refillTest.agenda = p.agenda ∧ p.refillTest.clock = p.clock ∧
    p.refillTest.serial = p.serial ∧ p.refillTest.free = p.free := by
  unfold Part.refillTest
  (try dsimp only)
  (repeat' split) <;> simp

@[simp] theorem Part.starvedTest_keeps (p : Part) :
    p.starvedTest.fcu = p.fcu ∧ p.starvedTest.scr = p.scr ∧ p.starvedTest.ltr = p.ltr ∧
    p.starvedTest.sq.queue = p.sq.queue ∧ p.starvedTest.sq.active = p.sq.active ∧
    p.starvedTest.sq.refillArmed = p.sq.refillArmed ∧ p.starvedTest.sq.refillMark = p.sq.refillMark ∧
    p.starvedTest.msh = p.msh ∧ p.starvedTest.dbm = p.dbm ∧ p.starvedTest.sin = p.sin ∧ p.starvedTest.hre
    = p.hre ∧ p.starvedTest.rtu = p.rtu ∧ p.starvedTest.tst = p.tst ∧ p.starvedTest.plp.hunt = p.plp.hunt
    ∧ p.starvedTest.plp.rx = p.plp.rx ∧ p.starvedTest.plp.op = p.plp.op ∧ p.starvedTest.plp.restarting =
    p.plp.restarting ∧ p.starvedTest.nco.urgentLevel = p.nco.urgentLevel ∧ p.starvedTest.agenda = p.agenda
    ∧ p.starvedTest.clock = p.clock ∧ p.starvedTest.serial = p.serial ∧ p.starvedTest.free = p.free := by
  unfold Part.starvedTest
  (try dsimp only)
  (repeat' split) <;> simp

@[simp] theorem Part.setStanding_keeps (n : Fin 3) (st : NodeStanding) (p : Part) :
    (p.setStanding n st).fcu = p.fcu ∧ (p.setStanding n st).scr = p.scr ∧ (p.setStanding n st).ltr = p.ltr
    ∧ (p.setStanding n st).sq = p.sq ∧ (p.setStanding n st).msh = p.msh ∧ (p.setStanding n st).dbm.bus =
    p.dbm.bus ∧ (p.setStanding n st).dbm.interlock = p.dbm.interlock ∧ (p.setStanding n st).dbm.number =
    p.dbm.number ∧ (p.setStanding n st).dbm.resetStops = p.dbm.resetStops ∧ (p.setStanding n
    st).dbm.responseLimit = p.dbm.responseLimit ∧ (p.setStanding n st).dbm.holdLimit = p.dbm.holdLimit ∧
    (p.setStanding n st).sin = p.sin ∧ (p.setStanding n st).hre = p.hre ∧ (p.setStanding n st).rtu = p.rtu
    ∧ (p.setStanding n st).tst = p.tst ∧ (p.setStanding n st).plp.hunt = p.plp.hunt ∧ (p.setStanding n
    st).plp.rx = p.plp.rx ∧ (p.setStanding n st).plp.op = p.plp.op ∧ (p.setStanding n st).plp.restarting =
    p.plp.restarting ∧ (p.setStanding n st).nco.urgentLevel = p.nco.urgentLevel ∧ (p.setStanding n
    st).agenda = p.agenda ∧ (p.setStanding n st).clock = p.clock ∧ (p.setStanding n st).serial = p.serial
    ∧ (p.setStanding n st).free = p.free := by
  unfold Part.setStanding
  (try dsimp only)
  (repeat' split) <;> simp

@[simp] theorem Part.askSetpoint_keeps (n : Fin 3) (speed : Int) (lookahead : Option Int) (p : Part) :
    (p.askSetpoint n speed lookahead).fcu = p.fcu ∧ (p.askSetpoint n speed lookahead).scr = p.scr ∧
    (p.askSetpoint n speed lookahead).ltr = p.ltr ∧ (p.askSetpoint n speed lookahead).sq = p.sq ∧
    (p.askSetpoint n speed lookahead).msh = p.msh ∧ (p.askSetpoint n speed lookahead).dbm.bus = p.dbm.bus
    ∧ (p.askSetpoint n speed lookahead).dbm.interlock = p.dbm.interlock ∧ (p.askSetpoint n speed
    lookahead).dbm.number = p.dbm.number ∧ (p.askSetpoint n speed lookahead).dbm.resetStops =
    p.dbm.resetStops ∧ (p.askSetpoint n speed lookahead).dbm.responseLimit = p.dbm.responseLimit ∧
    (p.askSetpoint n speed lookahead).dbm.holdLimit = p.dbm.holdLimit ∧ (p.askSetpoint n speed
    lookahead).sin = p.sin ∧ (p.askSetpoint n speed lookahead).hre = p.hre ∧ (p.askSetpoint n speed
    lookahead).rtu = p.rtu ∧ (p.askSetpoint n speed lookahead).tst = p.tst ∧ (p.askSetpoint n speed
    lookahead).plp = p.plp ∧ (p.askSetpoint n speed lookahead).nco = p.nco ∧ (p.askSetpoint n speed
    lookahead).agenda.blade = p.agenda.blade ∧ (p.askSetpoint n speed lookahead).agenda.deferral =
    p.agenda.deferral ∧ (p.askSetpoint n speed lookahead).agenda.removed = p.agenda.removed ∧
    (p.askSetpoint n speed lookahead).agenda.starved = p.agenda.starved ∧ (p.askSetpoint n speed
    lookahead).agenda.returning = p.agenda.returning ∧ (p.askSetpoint n speed lookahead).agenda.period =
    p.agenda.period ∧ (p.askSetpoint n speed lookahead).agenda.walk = p.agenda.walk ∧ (p.askSetpoint n
    speed lookahead).agenda.store = p.agenda.store ∧ (p.askSetpoint n speed lookahead).agenda.port =
    p.agenda.port ∧ (p.askSetpoint n speed lookahead).agenda.held = p.agenda.held ∧ (p.askSetpoint n speed
    lookahead).agenda.frames = p.agenda.frames ∧ (p.askSetpoint n speed lookahead).clock = p.clock ∧
    (p.askSetpoint n speed lookahead).serial = p.serial ∧ (p.askSetpoint n speed lookahead).free = p.free
    := by
  unfold Part.askSetpoint
  (try dsimp only)
  (repeat' split) <;> simp

@[simp] theorem Part.askStop_keeps (n : Fin 3) (p : Part) :
    (p.askStop n).fcu = p.fcu ∧ (p.askStop n).scr = p.scr ∧ (p.askStop n).ltr = p.ltr ∧ (p.askStop n).sq =
    p.sq ∧ (p.askStop n).msh = p.msh ∧ (p.askStop n).dbm.bus = p.dbm.bus ∧ (p.askStop n).dbm.interlock =
    p.dbm.interlock ∧ (p.askStop n).dbm.number = p.dbm.number ∧ (p.askStop n).dbm.resetStops =
    p.dbm.resetStops ∧ (p.askStop n).dbm.responseLimit = p.dbm.responseLimit ∧ (p.askStop n).dbm.holdLimit
    = p.dbm.holdLimit ∧ (p.askStop n).sin = p.sin ∧ (p.askStop n).hre = p.hre ∧ (p.askStop n).rtu = p.rtu
    ∧ (p.askStop n).tst = p.tst ∧ (p.askStop n).plp = p.plp ∧ (p.askStop n).nco = p.nco ∧ (p.askStop
    n).agenda.blade = p.agenda.blade ∧ (p.askStop n).agenda.deferral = p.agenda.deferral ∧ (p.askStop
    n).agenda.removed = p.agenda.removed ∧ (p.askStop n).agenda.starved = p.agenda.starved ∧ (p.askStop
    n).agenda.returning = p.agenda.returning ∧ (p.askStop n).agenda.period = p.agenda.period ∧ (p.askStop
    n).agenda.walk = p.agenda.walk ∧ (p.askStop n).agenda.store = p.agenda.store ∧ (p.askStop
    n).agenda.port = p.agenda.port ∧ (p.askStop n).agenda.held = p.agenda.held ∧ (p.askStop
    n).agenda.frames = p.agenda.frames ∧ (p.askStop n).clock = p.clock ∧ (p.askStop n).serial = p.serial ∧
    (p.askStop n).free = p.free := by
  unfold Part.askStop
  (try dsimp only)
  (repeat' split) <;> simp

@[simp] theorem Part.askArm_keeps (level : Nat) (p : Part) :
    (p.askArm level).fcu = p.fcu ∧ (p.askArm level).scr = p.scr ∧ (p.askArm level).ltr = p.ltr ∧ (p.askArm
    level).sq = p.sq ∧ (p.askArm level).msh = p.msh ∧ (p.askArm level).dbm.bus = p.dbm.bus ∧ (p.askArm
    level).dbm.interlock = p.dbm.interlock ∧ (p.askArm level).dbm.number = p.dbm.number ∧ (p.askArm
    level).dbm.resetStops = p.dbm.resetStops ∧ (p.askArm level).dbm.responseLimit = p.dbm.responseLimit ∧
    (p.askArm level).dbm.holdLimit = p.dbm.holdLimit ∧ (p.askArm level).sin = p.sin ∧ (p.askArm level).hre
    = p.hre ∧ (p.askArm level).rtu = p.rtu ∧ (p.askArm level).tst = p.tst ∧ (p.askArm level).plp = p.plp ∧
    (p.askArm level).nco = p.nco ∧ (p.askArm level).agenda.blade = p.agenda.blade ∧ (p.askArm
    level).agenda.deferral = p.agenda.deferral ∧ (p.askArm level).agenda.removed = p.agenda.removed ∧
    (p.askArm level).agenda.starved = p.agenda.starved ∧ (p.askArm level).agenda.returning =
    p.agenda.returning ∧ (p.askArm level).agenda.period = p.agenda.period ∧ (p.askArm level).agenda.walk =
    p.agenda.walk ∧ (p.askArm level).agenda.store = p.agenda.store ∧ (p.askArm level).agenda.port =
    p.agenda.port ∧ (p.askArm level).agenda.held = p.agenda.held ∧ (p.askArm level).agenda.frames =
    p.agenda.frames ∧ (p.askArm level).clock = p.clock ∧ (p.askArm level).serial = p.serial ∧ (p.askArm
    level).free = p.free := by
  unfold Part.askArm
  (try dsimp only)
  (repeat' split) <;> simp

@[simp] theorem Part.askStatus_keeps (p : Part) :
    p.askStatus.fcu = p.fcu ∧ p.askStatus.scr = p.scr ∧ p.askStatus.ltr = p.ltr ∧ p.askStatus.sq = p.sq ∧
    p.askStatus.msh = p.msh ∧ p.askStatus.dbm.bus = p.dbm.bus ∧ p.askStatus.dbm.interlock =
    p.dbm.interlock ∧ p.askStatus.dbm.number = p.dbm.number ∧ p.askStatus.dbm.resetStops =
    p.dbm.resetStops ∧ p.askStatus.dbm.responseLimit = p.dbm.responseLimit ∧ p.askStatus.dbm.holdLimit =
    p.dbm.holdLimit ∧ p.askStatus.sin = p.sin ∧ p.askStatus.hre = p.hre ∧ p.askStatus.rtu = p.rtu ∧
    p.askStatus.tst = p.tst ∧ p.askStatus.plp = p.plp ∧ p.askStatus.nco = p.nco ∧ p.askStatus.agenda.blade
    = p.agenda.blade ∧ p.askStatus.agenda.deferral = p.agenda.deferral ∧ p.askStatus.agenda.removed =
    p.agenda.removed ∧ p.askStatus.agenda.starved = p.agenda.starved ∧ p.askStatus.agenda.returning =
    p.agenda.returning ∧ p.askStatus.agenda.period = p.agenda.period ∧ p.askStatus.agenda.walk =
    p.agenda.walk ∧ p.askStatus.agenda.store = p.agenda.store ∧ p.askStatus.agenda.port = p.agenda.port ∧
    p.askStatus.agenda.held = p.agenda.held ∧ p.askStatus.agenda.frames = p.agenda.frames ∧
    p.askStatus.clock = p.clock ∧ p.askStatus.serial = p.serial ∧ p.askStatus.free = p.free := by
  unfold Part.askStatus
  (try dsimp only)
  (repeat' split) <;> simp

@[simp] theorem Part.armLapsed_keeps (p : Part) :
    p.armLapsed.fcu.mode = p.fcu.mode ∧ p.armLapsed.fcu.resume = p.fcu.resume ∧ p.armLapsed.fcu.stopCause
    = p.fcu.stopCause ∧ p.armLapsed.fcu.hazardLevel = p.fcu.hazardLevel ∧ p.armLapsed.fcu.armRefused =
    p.fcu.armRefused ∧ p.armLapsed.fcu.permission = p.fcu.permission ∧ p.armLapsed.fcu.keepSilent =
    p.fcu.keepSilent ∧ p.armLapsed.fcu.keepTimer = p.fcu.keepTimer ∧ p.armLapsed.fcu.keepLimit =
    p.fcu.keepLimit ∧ p.armLapsed.fcu.silentAction = p.fcu.silentAction ∧ p.armLapsed.fcu.zoneBladeMax =
    p.fcu.zoneBladeMax ∧ p.armLapsed.fcu.levelToSend = p.fcu.levelToSend ∧ p.armLapsed.scr = p.scr ∧
    p.armLapsed.ltr = p.ltr ∧ p.armLapsed.sq = p.sq ∧ p.armLapsed.msh = p.msh ∧ p.armLapsed.dbm = p.dbm ∧
    p.armLapsed.sin = p.sin ∧ p.armLapsed.hre = p.hre ∧ p.armLapsed.rtu = p.rtu ∧ p.armLapsed.tst = p.tst
    ∧ p.armLapsed.plp = p.plp ∧ p.armLapsed.nco = p.nco ∧ p.armLapsed.agenda.deferral = p.agenda.deferral
    ∧ p.armLapsed.agenda.removed = p.agenda.removed ∧ p.armLapsed.agenda.starved = p.agenda.starved ∧
    p.armLapsed.agenda.returning = p.agenda.returning ∧ p.armLapsed.agenda.period = p.agenda.period ∧
    p.armLapsed.agenda.walk = p.agenda.walk ∧ p.armLapsed.agenda.bus = p.agenda.bus ∧
    p.armLapsed.agenda.store = p.agenda.store ∧ p.armLapsed.agenda.port = p.agenda.port ∧
    p.armLapsed.agenda.held = p.agenda.held ∧ p.armLapsed.agenda.frames = p.agenda.frames ∧
    p.armLapsed.clock = p.clock ∧ p.armLapsed.serial = p.serial ∧ p.armLapsed.free = p.free := by
  unfold Part.armLapsed
  (try dsimp only)
  (repeat' split) <;> simp

@[simp] theorem Part.replaceArm_keeps (p : Part) :
    p.replaceArm.fcu.mode = p.fcu.mode ∧ p.replaceArm.fcu.resume = p.fcu.resume ∧
    p.replaceArm.fcu.stopCause = p.fcu.stopCause ∧ p.replaceArm.fcu.hazardLevel = p.fcu.hazardLevel ∧
    p.replaceArm.fcu.armRefused = p.fcu.armRefused ∧ p.replaceArm.fcu.permission = p.fcu.permission ∧
    p.replaceArm.fcu.keepSilent = p.fcu.keepSilent ∧ p.replaceArm.fcu.keepTimer = p.fcu.keepTimer ∧
    p.replaceArm.fcu.keepLimit = p.fcu.keepLimit ∧ p.replaceArm.fcu.silentAction = p.fcu.silentAction ∧
    p.replaceArm.fcu.zoneBladeMax = p.fcu.zoneBladeMax ∧ p.replaceArm.fcu.levelToSend = p.fcu.levelToSend
    ∧ p.replaceArm.scr = p.scr ∧ p.replaceArm.ltr = p.ltr ∧ p.replaceArm.sq = p.sq ∧ p.replaceArm.msh =
    p.msh ∧ p.replaceArm.dbm.bus = p.dbm.bus ∧ p.replaceArm.dbm.interlock = p.dbm.interlock ∧
    p.replaceArm.dbm.number = p.dbm.number ∧ p.replaceArm.dbm.resetStops = p.dbm.resetStops ∧
    p.replaceArm.dbm.responseLimit = p.dbm.responseLimit ∧ p.replaceArm.dbm.holdLimit = p.dbm.holdLimit ∧
    p.replaceArm.sin = p.sin ∧ p.replaceArm.hre = p.hre ∧ p.replaceArm.rtu = p.rtu ∧ p.replaceArm.tst =
    p.tst ∧ p.replaceArm.plp = p.plp ∧ p.replaceArm.nco = p.nco ∧ p.replaceArm.agenda.deferral =
    p.agenda.deferral ∧ p.replaceArm.agenda.removed = p.agenda.removed ∧ p.replaceArm.agenda.starved =
    p.agenda.starved ∧ p.replaceArm.agenda.returning = p.agenda.returning ∧ p.replaceArm.agenda.period =
    p.agenda.period ∧ p.replaceArm.agenda.walk = p.agenda.walk ∧ p.replaceArm.agenda.bus = p.agenda.bus ∧
    p.replaceArm.agenda.store = p.agenda.store ∧ p.replaceArm.agenda.port = p.agenda.port ∧
    p.replaceArm.agenda.held = p.agenda.held ∧ p.replaceArm.agenda.frames = p.agenda.frames ∧
    p.replaceArm.clock = p.clock ∧ p.replaceArm.serial = p.serial ∧ p.replaceArm.free = p.free := by
  unfold Part.replaceArm
  (try dsimp only)
  (repeat' split) <;> simp

@[simp] theorem Part.stopBladeExchange_keeps (p : Part) :
    p.stopBladeExchange.fcu.mode = p.fcu.mode ∧ p.stopBladeExchange.fcu.resume = p.fcu.resume ∧
    p.stopBladeExchange.fcu.stopCause = p.fcu.stopCause ∧ p.stopBladeExchange.fcu.hazardLevel =
    p.fcu.hazardLevel ∧ p.stopBladeExchange.fcu.armRefused = p.fcu.armRefused ∧
    p.stopBladeExchange.fcu.permission = p.fcu.permission ∧ p.stopBladeExchange.fcu.keepSilent =
    p.fcu.keepSilent ∧ p.stopBladeExchange.fcu.keepTimer = p.fcu.keepTimer ∧
    p.stopBladeExchange.fcu.keepLimit = p.fcu.keepLimit ∧ p.stopBladeExchange.fcu.silentAction =
    p.fcu.silentAction ∧ p.stopBladeExchange.fcu.zoneBladeMax = p.fcu.zoneBladeMax ∧
    p.stopBladeExchange.fcu.levelToSend = p.fcu.levelToSend ∧ p.stopBladeExchange.scr = p.scr ∧
    p.stopBladeExchange.ltr = p.ltr ∧ p.stopBladeExchange.sq = p.sq ∧ p.stopBladeExchange.msh = p.msh ∧
    p.stopBladeExchange.dbm.bus = p.dbm.bus ∧ p.stopBladeExchange.dbm.number = p.dbm.number ∧
    p.stopBladeExchange.dbm.resetStops = p.dbm.resetStops ∧ p.stopBladeExchange.dbm.responseLimit =
    p.dbm.responseLimit ∧ p.stopBladeExchange.dbm.holdLimit = p.dbm.holdLimit ∧ p.stopBladeExchange.sin =
    p.sin ∧ p.stopBladeExchange.hre = p.hre ∧ p.stopBladeExchange.rtu = p.rtu ∧ p.stopBladeExchange.tst =
    p.tst ∧ p.stopBladeExchange.plp = p.plp ∧ p.stopBladeExchange.nco = p.nco ∧
    p.stopBladeExchange.agenda.deferral = p.agenda.deferral ∧ p.stopBladeExchange.agenda.removed =
    p.agenda.removed ∧ p.stopBladeExchange.agenda.starved = p.agenda.starved ∧
    p.stopBladeExchange.agenda.returning = p.agenda.returning ∧ p.stopBladeExchange.agenda.period =
    p.agenda.period ∧ p.stopBladeExchange.agenda.walk = p.agenda.walk ∧ p.stopBladeExchange.agenda.bus =
    p.agenda.bus ∧ p.stopBladeExchange.agenda.store = p.agenda.store ∧ p.stopBladeExchange.agenda.port =
    p.agenda.port ∧ p.stopBladeExchange.agenda.held = p.agenda.held ∧ p.stopBladeExchange.agenda.frames =
    p.agenda.frames ∧ p.stopBladeExchange.clock = p.clock ∧ p.stopBladeExchange.serial = p.serial ∧
    p.stopBladeExchange.free = p.free := by
  unfold Part.stopBladeExchange
  (try dsimp only)
  (repeat' split) <;> simp

@[simp] theorem Part.askBladeStop_keeps (p : Part) :
    p.askBladeStop.fcu.mode = p.fcu.mode ∧ p.askBladeStop.fcu.resume = p.fcu.resume ∧
    p.askBladeStop.fcu.stopCause = p.fcu.stopCause ∧ p.askBladeStop.fcu.hazardLevel = p.fcu.hazardLevel ∧
    p.askBladeStop.fcu.armRefused = p.fcu.armRefused ∧ p.askBladeStop.fcu.permission = p.fcu.permission ∧
    p.askBladeStop.fcu.keepSilent = p.fcu.keepSilent ∧ p.askBladeStop.fcu.keepTimer = p.fcu.keepTimer ∧
    p.askBladeStop.fcu.keepLimit = p.fcu.keepLimit ∧ p.askBladeStop.fcu.silentAction = p.fcu.silentAction
    ∧ p.askBladeStop.fcu.zoneBladeMax = p.fcu.zoneBladeMax ∧ p.askBladeStop.fcu.levelToSend =
    p.fcu.levelToSend ∧ p.askBladeStop.scr = p.scr ∧ p.askBladeStop.ltr = p.ltr ∧ p.askBladeStop.sq = p.sq
    ∧ p.askBladeStop.msh = p.msh ∧ p.askBladeStop.dbm.bus = p.dbm.bus ∧ p.askBladeStop.dbm.number =
    p.dbm.number ∧ p.askBladeStop.dbm.resetStops = p.dbm.resetStops ∧ p.askBladeStop.dbm.responseLimit =
    p.dbm.responseLimit ∧ p.askBladeStop.dbm.holdLimit = p.dbm.holdLimit ∧ p.askBladeStop.sin = p.sin ∧
    p.askBladeStop.hre = p.hre ∧ p.askBladeStop.rtu = p.rtu ∧ p.askBladeStop.tst = p.tst ∧
    p.askBladeStop.plp = p.plp ∧ p.askBladeStop.nco = p.nco ∧ p.askBladeStop.agenda.deferral =
    p.agenda.deferral ∧ p.askBladeStop.agenda.removed = p.agenda.removed ∧ p.askBladeStop.agenda.starved =
    p.agenda.starved ∧ p.askBladeStop.agenda.returning = p.agenda.returning ∧ p.askBladeStop.agenda.period
    = p.agenda.period ∧ p.askBladeStop.agenda.walk = p.agenda.walk ∧ p.askBladeStop.agenda.store =
    p.agenda.store ∧ p.askBladeStop.agenda.port = p.agenda.port ∧ p.askBladeStop.agenda.held =
    p.agenda.held ∧ p.askBladeStop.agenda.frames = p.agenda.frames ∧ p.askBladeStop.clock = p.clock ∧
    p.askBladeStop.serial = p.serial ∧ p.askBladeStop.free = p.free := by
  unfold Part.askBladeStop
  (try dsimp only)
  (repeat' split) <;> simp

@[simp] theorem Part.armRefused_keeps (p : Part) :
    p.armRefused.fcu.mode = p.fcu.mode ∧ p.armRefused.fcu.resume = p.fcu.resume ∧
    p.armRefused.fcu.stopCause = p.fcu.stopCause ∧ p.armRefused.fcu.hazardLevel = p.fcu.hazardLevel ∧
    p.armRefused.fcu.permission = p.fcu.permission ∧ p.armRefused.fcu.keepSilent = p.fcu.keepSilent ∧
    p.armRefused.fcu.keepTimer = p.fcu.keepTimer ∧ p.armRefused.fcu.keepLimit = p.fcu.keepLimit ∧
    p.armRefused.fcu.silentAction = p.fcu.silentAction ∧ p.armRefused.fcu.zoneBladeMax =
    p.fcu.zoneBladeMax ∧ p.armRefused.fcu.levelToSend = p.fcu.levelToSend ∧ p.armRefused.scr = p.scr ∧
    p.armRefused.ltr = p.ltr ∧ p.armRefused.sq = p.sq ∧ p.armRefused.msh = p.msh ∧ p.armRefused.dbm.bus =
    p.dbm.bus ∧ p.armRefused.dbm.number = p.dbm.number ∧ p.armRefused.dbm.resetStops = p.dbm.resetStops ∧
    p.armRefused.dbm.responseLimit = p.dbm.responseLimit ∧ p.armRefused.dbm.holdLimit = p.dbm.holdLimit ∧
    p.armRefused.sin = p.sin ∧ p.armRefused.hre = p.hre ∧ p.armRefused.rtu = p.rtu ∧ p.armRefused.tst =
    p.tst ∧ p.armRefused.plp = p.plp ∧ p.armRefused.nco = p.nco ∧ p.armRefused.agenda.deferral =
    p.agenda.deferral ∧ p.armRefused.agenda.removed = p.agenda.removed ∧ p.armRefused.agenda.starved =
    p.agenda.starved ∧ p.armRefused.agenda.returning = p.agenda.returning ∧ p.armRefused.agenda.period =
    p.agenda.period ∧ p.armRefused.agenda.walk = p.agenda.walk ∧ p.armRefused.agenda.store =
    p.agenda.store ∧ p.armRefused.agenda.port = p.agenda.port ∧ p.armRefused.agenda.held = p.agenda.held ∧
    p.armRefused.agenda.frames = p.agenda.frames ∧ p.armRefused.clock = p.clock ∧ p.armRefused.serial =
    p.serial ∧ p.armRefused.free = p.free := by
  unfold Part.armRefused
  (try dsimp only)
  (repeat' split) <;> simp

@[simp] theorem Part.runAccepted_keeps (level : Nat) (p : Part) :
    (p.runAccepted level).fcu.mode = p.fcu.mode ∧ (p.runAccepted level).fcu.resume = p.fcu.resume ∧
    (p.runAccepted level).fcu.stopCause = p.fcu.stopCause ∧ (p.runAccepted level).fcu.hazardLevel =
    p.fcu.hazardLevel ∧ (p.runAccepted level).fcu.armRefused = p.fcu.armRefused ∧ (p.runAccepted
    level).fcu.permission = p.fcu.permission ∧ (p.runAccepted level).fcu.keepSilent = p.fcu.keepSilent ∧
    (p.runAccepted level).fcu.keepTimer = p.fcu.keepTimer ∧ (p.runAccepted level).fcu.keepLimit =
    p.fcu.keepLimit ∧ (p.runAccepted level).fcu.silentAction = p.fcu.silentAction ∧ (p.runAccepted
    level).fcu.zoneBladeMax = p.fcu.zoneBladeMax ∧ (p.runAccepted level).fcu.levelToSend =
    p.fcu.levelToSend ∧ (p.runAccepted level).scr = p.scr ∧ (p.runAccepted level).ltr = p.ltr ∧
    (p.runAccepted level).sq = p.sq ∧ (p.runAccepted level).msh = p.msh ∧ (p.runAccepted level).dbm.bus =
    p.dbm.bus ∧ (p.runAccepted level).dbm.interlock = p.dbm.interlock ∧ (p.runAccepted level).dbm.number =
    p.dbm.number ∧ (p.runAccepted level).dbm.resetStops = p.dbm.resetStops ∧ (p.runAccepted
    level).dbm.responseLimit = p.dbm.responseLimit ∧ (p.runAccepted level).dbm.holdLimit = p.dbm.holdLimit
    ∧ (p.runAccepted level).sin = p.sin ∧ (p.runAccepted level).hre = p.hre ∧ (p.runAccepted level).rtu =
    p.rtu ∧ (p.runAccepted level).tst = p.tst ∧ (p.runAccepted level).plp = p.plp ∧ (p.runAccepted
    level).nco = p.nco ∧ (p.runAccepted level).agenda.blade = p.agenda.blade ∧ (p.runAccepted
    level).agenda.deferral = p.agenda.deferral ∧ (p.runAccepted level).agenda.removed = p.agenda.removed ∧
    (p.runAccepted level).agenda.starved = p.agenda.starved ∧ (p.runAccepted level).agenda.returning =
    p.agenda.returning ∧ (p.runAccepted level).agenda.period = p.agenda.period ∧ (p.runAccepted
    level).agenda.walk = p.agenda.walk ∧ (p.runAccepted level).agenda.store = p.agenda.store ∧
    (p.runAccepted level).agenda.port = p.agenda.port ∧ (p.runAccepted level).agenda.held = p.agenda.held
    ∧ (p.runAccepted level).agenda.frames = p.agenda.frames ∧ (p.runAccepted level).clock = p.clock ∧
    (p.runAccepted level).serial = p.serial ∧ (p.runAccepted level).free = p.free := by
  unfold Part.runAccepted
  (try dsimp only)
  (repeat' split) <;> simp

@[simp] theorem Part.bladeStopAccepted_keeps (p : Part) :
    p.bladeStopAccepted.fcu.mode = p.fcu.mode ∧ p.bladeStopAccepted.fcu.resume = p.fcu.resume ∧
    p.bladeStopAccepted.fcu.stopCause = p.fcu.stopCause ∧ p.bladeStopAccepted.fcu.hazardLevel =
    p.fcu.hazardLevel ∧ p.bladeStopAccepted.fcu.armRefused = p.fcu.armRefused ∧
    p.bladeStopAccepted.fcu.permission = p.fcu.permission ∧ p.bladeStopAccepted.fcu.keepSilent =
    p.fcu.keepSilent ∧ p.bladeStopAccepted.fcu.keepTimer = p.fcu.keepTimer ∧
    p.bladeStopAccepted.fcu.keepLimit = p.fcu.keepLimit ∧ p.bladeStopAccepted.fcu.silentAction =
    p.fcu.silentAction ∧ p.bladeStopAccepted.fcu.zoneBladeMax = p.fcu.zoneBladeMax ∧
    p.bladeStopAccepted.fcu.levelToSend = p.fcu.levelToSend ∧ p.bladeStopAccepted.scr = p.scr ∧
    p.bladeStopAccepted.ltr = p.ltr ∧ p.bladeStopAccepted.sq = p.sq ∧ p.bladeStopAccepted.msh = p.msh ∧
    p.bladeStopAccepted.dbm.bus = p.dbm.bus ∧ p.bladeStopAccepted.dbm.interlock = p.dbm.interlock ∧
    p.bladeStopAccepted.dbm.number = p.dbm.number ∧ p.bladeStopAccepted.dbm.resetStops = p.dbm.resetStops
    ∧ p.bladeStopAccepted.dbm.responseLimit = p.dbm.responseLimit ∧ p.bladeStopAccepted.dbm.holdLimit =
    p.dbm.holdLimit ∧ p.bladeStopAccepted.sin = p.sin ∧ p.bladeStopAccepted.hre = p.hre ∧
    p.bladeStopAccepted.rtu = p.rtu ∧ p.bladeStopAccepted.tst = p.tst ∧ p.bladeStopAccepted.plp = p.plp ∧
    p.bladeStopAccepted.nco = p.nco ∧ p.bladeStopAccepted.agenda.blade = p.agenda.blade ∧
    p.bladeStopAccepted.agenda.deferral = p.agenda.deferral ∧ p.bladeStopAccepted.agenda.removed =
    p.agenda.removed ∧ p.bladeStopAccepted.agenda.starved = p.agenda.starved ∧
    p.bladeStopAccepted.agenda.returning = p.agenda.returning ∧ p.bladeStopAccepted.agenda.period =
    p.agenda.period ∧ p.bladeStopAccepted.agenda.walk = p.agenda.walk ∧ p.bladeStopAccepted.agenda.store =
    p.agenda.store ∧ p.bladeStopAccepted.agenda.port = p.agenda.port ∧ p.bladeStopAccepted.agenda.held =
    p.agenda.held ∧ p.bladeStopAccepted.agenda.frames = p.agenda.frames ∧ p.bladeStopAccepted.clock =
    p.clock ∧ p.bladeStopAccepted.serial = p.serial ∧ p.bladeStopAccepted.free = p.free := by
  unfold Part.bladeStopAccepted
  (try dsimp only)
  (repeat' split) <;> simp

@[simp] theorem Part.bladeStatusAccepted_keeps (rpm : BitVec 16) (p : Part) :
    (p.bladeStatusAccepted rpm).fcu.mode = p.fcu.mode ∧ (p.bladeStatusAccepted rpm).fcu.resume =
    p.fcu.resume ∧ (p.bladeStatusAccepted rpm).fcu.stopCause = p.fcu.stopCause ∧ (p.bladeStatusAccepted
    rpm).fcu.hazardLevel = p.fcu.hazardLevel ∧ (p.bladeStatusAccepted rpm).fcu.armRefused =
    p.fcu.armRefused ∧ (p.bladeStatusAccepted rpm).fcu.permission = p.fcu.permission ∧
    (p.bladeStatusAccepted rpm).fcu.keepSilent = p.fcu.keepSilent ∧ (p.bladeStatusAccepted
    rpm).fcu.keepTimer = p.fcu.keepTimer ∧ (p.bladeStatusAccepted rpm).fcu.keepLimit = p.fcu.keepLimit ∧
    (p.bladeStatusAccepted rpm).fcu.silentAction = p.fcu.silentAction ∧ (p.bladeStatusAccepted
    rpm).fcu.zoneBladeMax = p.fcu.zoneBladeMax ∧ (p.bladeStatusAccepted rpm).fcu.levelToSend =
    p.fcu.levelToSend ∧ (p.bladeStatusAccepted rpm).scr = p.scr ∧ (p.bladeStatusAccepted rpm).ltr = p.ltr
    ∧ (p.bladeStatusAccepted rpm).sq = p.sq ∧ (p.bladeStatusAccepted rpm).msh = p.msh ∧
    (p.bladeStatusAccepted rpm).dbm.bus = p.dbm.bus ∧ (p.bladeStatusAccepted rpm).dbm.interlock =
    p.dbm.interlock ∧ (p.bladeStatusAccepted rpm).dbm.number = p.dbm.number ∧ (p.bladeStatusAccepted
    rpm).dbm.resetStops = p.dbm.resetStops ∧ (p.bladeStatusAccepted rpm).dbm.responseLimit =
    p.dbm.responseLimit ∧ (p.bladeStatusAccepted rpm).dbm.holdLimit = p.dbm.holdLimit ∧
    (p.bladeStatusAccepted rpm).sin = p.sin ∧ (p.bladeStatusAccepted rpm).hre = p.hre ∧
    (p.bladeStatusAccepted rpm).rtu = p.rtu ∧ (p.bladeStatusAccepted rpm).tst = p.tst ∧
    (p.bladeStatusAccepted rpm).plp = p.plp ∧ (p.bladeStatusAccepted rpm).nco = p.nco ∧
    (p.bladeStatusAccepted rpm).agenda.deferral = p.agenda.deferral ∧ (p.bladeStatusAccepted
    rpm).agenda.removed = p.agenda.removed ∧ (p.bladeStatusAccepted rpm).agenda.starved = p.agenda.starved
    ∧ (p.bladeStatusAccepted rpm).agenda.returning = p.agenda.returning ∧ (p.bladeStatusAccepted
    rpm).agenda.period = p.agenda.period ∧ (p.bladeStatusAccepted rpm).agenda.walk = p.agenda.walk ∧
    (p.bladeStatusAccepted rpm).agenda.store = p.agenda.store ∧ (p.bladeStatusAccepted rpm).agenda.port =
    p.agenda.port ∧ (p.bladeStatusAccepted rpm).agenda.held = p.agenda.held ∧ (p.bladeStatusAccepted
    rpm).agenda.frames = p.agenda.frames ∧ (p.bladeStatusAccepted rpm).clock = p.clock ∧
    (p.bladeStatusAccepted rpm).serial = p.serial ∧ (p.bladeStatusAccepted rpm).free = p.free := by
  unfold Part.bladeStatusAccepted
  (try dsimp only)
  (repeat' split) <;> simp

@[simp] theorem Part.decideBlade_keeps (p : Part) :
    p.decideBlade.fcu.mode = p.fcu.mode ∧ p.decideBlade.fcu.resume = p.fcu.resume ∧
    p.decideBlade.fcu.stopCause = p.fcu.stopCause ∧ p.decideBlade.fcu.hazardLevel = p.fcu.hazardLevel ∧
    p.decideBlade.fcu.keepSilent = p.fcu.keepSilent ∧ p.decideBlade.fcu.keepTimer = p.fcu.keepTimer ∧
    p.decideBlade.fcu.keepLimit = p.fcu.keepLimit ∧ p.decideBlade.fcu.silentAction = p.fcu.silentAction ∧
    p.decideBlade.fcu.zoneBladeMax = p.fcu.zoneBladeMax ∧ p.decideBlade.scr = p.scr ∧ p.decideBlade.ltr =
    p.ltr ∧ p.decideBlade.sq = p.sq ∧ p.decideBlade.msh = p.msh ∧ p.decideBlade.dbm.bus = p.dbm.bus ∧
    p.decideBlade.dbm.number = p.dbm.number ∧ p.decideBlade.dbm.resetStops = p.dbm.resetStops ∧
    p.decideBlade.dbm.responseLimit = p.dbm.responseLimit ∧ p.decideBlade.dbm.holdLimit = p.dbm.holdLimit
    ∧ p.decideBlade.sin = p.sin ∧ p.decideBlade.hre = p.hre ∧ p.decideBlade.rtu = p.rtu ∧
    p.decideBlade.tst = p.tst ∧ p.decideBlade.plp = p.plp ∧ p.decideBlade.nco = p.nco ∧
    p.decideBlade.agenda.deferral = p.agenda.deferral ∧ p.decideBlade.agenda.removed = p.agenda.removed ∧
    p.decideBlade.agenda.starved = p.agenda.starved ∧ p.decideBlade.agenda.returning = p.agenda.returning
    ∧ p.decideBlade.agenda.period = p.agenda.period ∧ p.decideBlade.agenda.walk = p.agenda.walk ∧
    p.decideBlade.agenda.store = p.agenda.store ∧ p.decideBlade.agenda.port = p.agenda.port ∧
    p.decideBlade.agenda.held = p.agenda.held ∧ p.decideBlade.agenda.frames = p.agenda.frames ∧
    p.decideBlade.clock = p.clock ∧ p.decideBlade.serial = p.serial ∧ p.decideBlade.free = p.free := by
  unfold Part.decideBlade
  (try dsimp only)
  (repeat' split) <;> simp

end Sys2Proof.Machine
end

