-- ==== Sys2Proof/Laws/ModesKeep.lean ====
section
/-! SUPPORT. What the changes of mode and the hazard engine leave of the part. -/

namespace Sys2Proof.Machine

@[simp] theorem Part.setMode_keeps (m : Mode) (resume : Option Resume) (p : Part) :
    (p.setMode m resume).fcu.stopCause = p.fcu.stopCause ∧ (p.setMode m resume).fcu.hazardLevel =
    p.fcu.hazardLevel ∧ (p.setMode m resume).fcu.blade = p.fcu.blade ∧ (p.setMode m resume).fcu.armRefused
    = p.fcu.armRefused ∧ (p.setMode m resume).fcu.permission = p.fcu.permission ∧ (p.setMode m
    resume).fcu.keepSilent = p.fcu.keepSilent ∧ (p.setMode m resume).fcu.keepTimer = p.fcu.keepTimer ∧
    (p.setMode m resume).fcu.keepLimit = p.fcu.keepLimit ∧ (p.setMode m resume).fcu.silentAction =
    p.fcu.silentAction ∧ (p.setMode m resume).fcu.zoneBladeMax = p.fcu.zoneBladeMax ∧ (p.setMode m
    resume).fcu.levelToSend = p.fcu.levelToSend ∧ (p.setMode m resume).scr = p.scr ∧ (p.setMode m
    resume).ltr = p.ltr ∧ (p.setMode m resume).sq = p.sq ∧ (p.setMode m resume).msh = p.msh ∧ (p.setMode m
    resume).dbm = p.dbm ∧ (p.setMode m resume).sin = p.sin ∧ (p.setMode m resume).hre = p.hre ∧ (p.setMode
    m resume).rtu = p.rtu ∧ (p.setMode m resume).tst = p.tst ∧ (p.setMode m resume).plp.hunt = p.plp.hunt
    ∧ (p.setMode m resume).plp.rx = p.plp.rx ∧ (p.setMode m resume).plp.op = p.plp.op ∧ (p.setMode m
    resume).plp.restarting = p.plp.restarting ∧ (p.setMode m resume).nco.urgentLevel = p.nco.urgentLevel ∧
    (p.setMode m resume).agenda.removed = p.agenda.removed ∧ (p.setMode m resume).agenda.period =
    p.agenda.period ∧ (p.setMode m resume).agenda.walk = p.agenda.walk ∧ (p.setMode m resume).agenda.bus =
    p.agenda.bus ∧ (p.setMode m resume).agenda.store = p.agenda.store ∧ (p.setMode m resume).agenda.port =
    p.agenda.port ∧ (p.setMode m resume).agenda.held = p.agenda.held ∧ (p.setMode m resume).agenda.frames
    = p.agenda.frames ∧ (p.setMode m resume).clock = p.clock ∧ (p.setMode m resume).serial = p.serial ∧
    (p.setMode m resume).free = p.free := by
  unfold Part.setMode
  (try dsimp only)
  (repeat' split) <;> simp

@[simp] theorem Part.stopMotion_keeps (p : Part) :
    p.stopMotion.fcu.mode = p.fcu.mode ∧ p.stopMotion.fcu.resume = p.fcu.resume ∧
    p.stopMotion.fcu.stopCause = p.fcu.stopCause ∧ p.stopMotion.fcu.hazardLevel = p.fcu.hazardLevel ∧
    p.stopMotion.fcu.armRefused = p.fcu.armRefused ∧ p.stopMotion.fcu.keepSilent = p.fcu.keepSilent ∧
    p.stopMotion.fcu.keepTimer = p.fcu.keepTimer ∧ p.stopMotion.fcu.keepLimit = p.fcu.keepLimit ∧
    p.stopMotion.fcu.silentAction = p.fcu.silentAction ∧ p.stopMotion.fcu.zoneBladeMax =
    p.fcu.zoneBladeMax ∧ p.stopMotion.fcu.levelToSend = p.fcu.levelToSend ∧ p.stopMotion.scr = p.scr ∧
    p.stopMotion.ltr = p.ltr ∧ p.stopMotion.sq = p.sq ∧ p.stopMotion.msh.source = p.msh.source ∧
    p.stopMotion.msh.credited = p.msh.credited ∧ p.stopMotion.msh.wheels = p.msh.wheels ∧
    p.stopMotion.msh.odometer = p.msh.odometer ∧ p.stopMotion.msh.odometerCarry = p.msh.odometerCarry ∧
    p.stopMotion.msh.progress = p.msh.progress ∧ p.stopMotion.msh.progressCarry = p.msh.progressCarry ∧
    p.stopMotion.msh.periodTimer = p.msh.periodTimer ∧ p.stopMotion.msh.kilotick = p.msh.kilotick ∧
    p.stopMotion.msh.maneuverSpeed = p.msh.maneuverSpeed ∧
    p.stopMotion.dbm.bus = p.dbm.bus ∧ p.stopMotion.dbm.number = p.dbm.number ∧
    p.stopMotion.dbm.resetStops = p.dbm.resetStops ∧ p.stopMotion.dbm.responseLimit = p.dbm.responseLimit
    ∧ p.stopMotion.dbm.holdLimit = p.dbm.holdLimit ∧ p.stopMotion.sin = p.sin ∧ p.stopMotion.hre = p.hre ∧
    p.stopMotion.rtu = p.rtu ∧ p.stopMotion.tst = p.tst ∧ p.stopMotion.plp = p.plp ∧ p.stopMotion.nco =
    p.nco ∧ p.stopMotion.agenda.deferral = p.agenda.deferral ∧ p.stopMotion.agenda.removed =
    p.agenda.removed ∧ p.stopMotion.agenda.starved = p.agenda.starved ∧ p.stopMotion.agenda.returning =
    p.agenda.returning ∧ p.stopMotion.agenda.period = p.agenda.period ∧ p.stopMotion.agenda.walk =
    p.agenda.walk ∧ p.stopMotion.agenda.store = p.agenda.store ∧ p.stopMotion.agenda.port = p.agenda.port
    ∧ p.stopMotion.agenda.held = p.agenda.held ∧ p.stopMotion.agenda.frames = p.agenda.frames ∧
    p.stopMotion.clock = p.clock ∧ p.stopMotion.serial = p.serial ∧ p.stopMotion.free = p.free := by
  unfold Part.stopMotion
  (try dsimp only)
  (repeat' split) <;> simp

@[simp] theorem Part.pauseStop_keeps (p : Part) :
    p.pauseStop.fcu = p.fcu ∧ p.pauseStop.scr = p.scr ∧ p.pauseStop.ltr = p.ltr ∧ p.pauseStop.sq = p.sq ∧
    p.pauseStop.msh.source = p.msh.source ∧ p.pauseStop.msh.credited = p.msh.credited ∧
    p.pauseStop.msh.wheels = p.msh.wheels ∧ p.pauseStop.msh.odometer = p.msh.odometer ∧
    p.pauseStop.msh.odometerCarry = p.msh.odometerCarry ∧ p.pauseStop.msh.progress = p.msh.progress ∧
    p.pauseStop.msh.progressCarry = p.msh.progressCarry ∧ p.pauseStop.msh.periodTimer = p.msh.periodTimer
    ∧ p.pauseStop.msh.kilotick = p.msh.kilotick ∧ p.pauseStop.msh.maneuverSpeed = p.msh.maneuverSpeed ∧
    p.pauseStop.dbm.bus = p.dbm.bus ∧
    p.pauseStop.dbm.interlock = p.dbm.interlock ∧ p.pauseStop.dbm.number = p.dbm.number ∧
    p.pauseStop.dbm.resetStops = p.dbm.resetStops ∧ p.pauseStop.dbm.responseLimit = p.dbm.responseLimit ∧
    p.pauseStop.dbm.holdLimit = p.dbm.holdLimit ∧ p.pauseStop.sin = p.sin ∧ p.pauseStop.hre = p.hre ∧
    p.pauseStop.rtu = p.rtu ∧ p.pauseStop.tst = p.tst ∧ p.pauseStop.plp = p.plp ∧ p.pauseStop.nco = p.nco
    ∧ p.pauseStop.agenda.blade = p.agenda.blade ∧ p.pauseStop.agenda.deferral = p.agenda.deferral ∧
    p.pauseStop.agenda.removed = p.agenda.removed ∧ p.pauseStop.agenda.starved = p.agenda.starved ∧
    p.pauseStop.agenda.returning = p.agenda.returning ∧ p.pauseStop.agenda.period = p.agenda.period ∧
    p.pauseStop.agenda.walk = p.agenda.walk ∧ p.pauseStop.agenda.store = p.agenda.store ∧
    p.pauseStop.agenda.port = p.agenda.port ∧ p.pauseStop.agenda.held = p.agenda.held ∧
    p.pauseStop.agenda.frames = p.agenda.frames ∧ p.pauseStop.clock = p.clock ∧ p.pauseStop.serial =
    p.serial ∧ p.pauseStop.free = p.free := by
  unfold Part.pauseStop
  (try dsimp only)
  (repeat' split) <;> simp

@[simp] theorem Part.endActive_keeps (p : Part) :
    p.endActive.fcu.mode = p.fcu.mode ∧ p.endActive.fcu.resume = p.fcu.resume ∧ p.endActive.fcu.stopCause
    = p.fcu.stopCause ∧ p.endActive.fcu.blade = p.fcu.blade ∧ p.endActive.fcu.armRefused =
    p.fcu.armRefused ∧ p.endActive.fcu.permission = p.fcu.permission ∧ p.endActive.fcu.keepSilent =
    p.fcu.keepSilent ∧ p.endActive.fcu.keepTimer = p.fcu.keepTimer ∧ p.endActive.fcu.keepLimit =
    p.fcu.keepLimit ∧ p.endActive.fcu.silentAction = p.fcu.silentAction ∧ p.endActive.fcu.zoneBladeMax =
    p.fcu.zoneBladeMax ∧ p.endActive.fcu.levelToSend = p.fcu.levelToSend ∧ p.endActive.scr = p.scr ∧
    p.endActive.ltr = p.ltr ∧ p.endActive.sq = p.sq ∧ p.endActive.msh = p.msh ∧ p.endActive.dbm = p.dbm ∧
    p.endActive.sin = p.sin ∧ p.endActive.hre.queue = p.hre.queue ∧ p.endActive.hre.walk = p.hre.walk ∧
    p.endActive.hre.pending = p.hre.pending ∧ p.endActive.rtu = p.rtu ∧ p.endActive.tst = p.tst ∧
    p.endActive.plp.hunt = p.plp.hunt ∧ p.endActive.plp.rx = p.plp.rx ∧ p.endActive.plp.op = p.plp.op ∧
    p.endActive.plp.restarting = p.plp.restarting ∧ p.endActive.nco.urgentLevel = p.nco.urgentLevel ∧
    p.endActive.agenda.removed = p.agenda.removed ∧ p.endActive.agenda.starved = p.agenda.starved ∧
    p.endActive.agenda.returning = p.agenda.returning ∧ p.endActive.agenda.period = p.agenda.period ∧
    p.endActive.agenda.walk = p.agenda.walk ∧ p.endActive.agenda.bus = p.agenda.bus ∧
    p.endActive.agenda.store = p.agenda.store ∧ p.endActive.agenda.port = p.agenda.port ∧
    p.endActive.agenda.held = p.agenda.held ∧ p.endActive.agenda.frames = p.agenda.frames ∧
    p.endActive.clock = p.clock ∧ p.endActive.serial = p.serial ∧ p.endActive.free = p.free := by
  unfold Part.endActive
  (try dsimp only)
  (repeat' split) <;> simp

@[simp] theorem Part.dropPending_keeps (p : Part) :
    p.dropPending.fcu = p.fcu ∧ p.dropPending.scr = p.scr ∧ p.dropPending.ltr = p.ltr ∧ p.dropPending.sq =
    p.sq ∧ p.dropPending.msh = p.msh ∧ p.dropPending.dbm = p.dbm ∧ p.dropPending.sin = p.sin ∧
    p.dropPending.hre.queue = p.hre.queue ∧ p.dropPending.hre.walk = p.hre.walk ∧ p.dropPending.hre.active
    = p.hre.active ∧ p.dropPending.rtu = p.rtu ∧ p.dropPending.tst = p.tst ∧ p.dropPending.plp.hunt =
    p.plp.hunt ∧ p.dropPending.plp.rx = p.plp.rx ∧ p.dropPending.plp.op = p.plp.op ∧
    p.dropPending.plp.restarting = p.plp.restarting ∧ p.dropPending.nco.urgentLevel = p.nco.urgentLevel ∧
    p.dropPending.agenda = p.agenda ∧ p.dropPending.clock = p.clock ∧ p.dropPending.serial = p.serial ∧
    p.dropPending.free = p.free := by
  unfold Part.dropPending
  (try dsimp only)
  (repeat' split) <;> simp

@[simp] theorem Part.clearResponses_keeps (p : Part) :
    p.clearResponses.fcu.mode = p.fcu.mode ∧ p.clearResponses.fcu.resume = p.fcu.resume ∧
    p.clearResponses.fcu.stopCause = p.fcu.stopCause ∧ p.clearResponses.fcu.blade = p.fcu.blade ∧
    p.clearResponses.fcu.armRefused = p.fcu.armRefused ∧ p.clearResponses.fcu.permission =
    p.fcu.permission ∧ p.clearResponses.fcu.keepSilent = p.fcu.keepSilent ∧ p.clearResponses.fcu.keepTimer
    = p.fcu.keepTimer ∧ p.clearResponses.fcu.keepLimit = p.fcu.keepLimit ∧
    p.clearResponses.fcu.silentAction = p.fcu.silentAction ∧ p.clearResponses.fcu.zoneBladeMax =
    p.fcu.zoneBladeMax ∧ p.clearResponses.fcu.levelToSend = p.fcu.levelToSend ∧ p.clearResponses.scr =
    p.scr ∧ p.clearResponses.ltr = p.ltr ∧ p.clearResponses.sq = p.sq ∧ p.clearResponses.msh = p.msh ∧
    p.clearResponses.dbm = p.dbm ∧ p.clearResponses.sin = p.sin ∧ p.clearResponses.hre.queue = p.hre.queue
    ∧ p.clearResponses.hre.walk = p.hre.walk ∧ p.clearResponses.rtu = p.rtu ∧ p.clearResponses.tst = p.tst
    ∧ p.clearResponses.plp.hunt = p.plp.hunt ∧ p.clearResponses.plp.rx = p.plp.rx ∧
    p.clearResponses.plp.op = p.plp.op ∧ p.clearResponses.plp.restarting = p.plp.restarting ∧
    p.clearResponses.nco.urgentLevel = p.nco.urgentLevel ∧ p.clearResponses.agenda.removed =
    p.agenda.removed ∧ p.clearResponses.agenda.starved = p.agenda.starved ∧
    p.clearResponses.agenda.returning = p.agenda.returning ∧ p.clearResponses.agenda.period =
    p.agenda.period ∧ p.clearResponses.agenda.walk = p.agenda.walk ∧ p.clearResponses.agenda.bus =
    p.agenda.bus ∧ p.clearResponses.agenda.store = p.agenda.store ∧ p.clearResponses.agenda.port =
    p.agenda.port ∧ p.clearResponses.agenda.held = p.agenda.held ∧ p.clearResponses.agenda.frames =
    p.agenda.frames ∧ p.clearResponses.clock = p.clock ∧ p.clearResponses.serial = p.serial ∧
    p.clearResponses.free = p.free := by
  unfold Part.clearResponses
  (try dsimp only)
  (repeat' split) <;> simp

@[simp] theorem Part.enterStop_keeps (m : Mode) (cause : Option StopCause) (flush : Bool) (p : Part) :
    (p.enterStop m cause flush).fcu.armRefused = p.fcu.armRefused ∧ (p.enterStop m cause
    flush).fcu.keepSilent = p.fcu.keepSilent ∧ (p.enterStop m cause flush).fcu.keepTimer = p.fcu.keepTimer
    ∧ (p.enterStop m cause flush).fcu.keepLimit = p.fcu.keepLimit ∧ (p.enterStop m cause
    flush).fcu.silentAction = p.fcu.silentAction ∧ (p.enterStop m cause flush).fcu.zoneBladeMax =
    p.fcu.zoneBladeMax ∧ (p.enterStop m cause flush).fcu.levelToSend = p.fcu.levelToSend ∧ (p.enterStop m
    cause flush).scr = p.scr ∧ (p.enterStop m cause flush).ltr = p.ltr ∧ (p.enterStop m cause
    flush).sq.refillArmed = p.sq.refillArmed ∧ (p.enterStop m cause flush).sq.starvedArmed =
    p.sq.starvedArmed ∧ (p.enterStop m cause flush).sq.refillMark = p.sq.refillMark ∧ (p.enterStop m cause
    flush).msh.source = p.msh.source ∧ (p.enterStop m cause flush).msh.credited = p.msh.credited ∧
    (p.enterStop m cause flush).msh.wheels = p.msh.wheels ∧ (p.enterStop m cause flush).msh.odometer =
    p.msh.odometer ∧ (p.enterStop m cause flush).msh.odometerCarry = p.msh.odometerCarry ∧ (p.enterStop m
    cause flush).msh.progress = p.msh.progress ∧ (p.enterStop m cause flush).msh.progressCarry =
    p.msh.progressCarry ∧ (p.enterStop m cause flush).msh.periodTimer = p.msh.periodTimer ∧ (p.enterStop m
    cause flush).msh.kilotick = p.msh.kilotick ∧ (p.enterStop m
    cause flush).msh.maneuverSpeed = p.msh.maneuverSpeed ∧ (p.enterStop m cause flush).dbm.bus = p.dbm.bus ∧
    (p.enterStop m cause flush).dbm.number = p.dbm.number ∧ (p.enterStop m cause flush).dbm.resetStops =
    p.dbm.resetStops ∧ (p.enterStop m cause flush).dbm.responseLimit = p.dbm.responseLimit ∧ (p.enterStop
    m cause flush).dbm.holdLimit = p.dbm.holdLimit ∧ (p.enterStop m cause flush).sin = p.sin ∧
    (p.enterStop m cause flush).hre.queue = p.hre.queue ∧ (p.enterStop m cause flush).hre.walk =
    p.hre.walk ∧ (p.enterStop m cause flush).rtu.applying = p.rtu.applying ∧ (p.enterStop m cause
    flush).rtu.params = p.rtu.params ∧ (p.enterStop m cause flush).rtu.distance = p.rtu.distance ∧
    (p.enterStop m cause flush).rtu.dockKey = p.rtu.dockKey ∧ (p.enterStop m cause flush).rtu.copies =
    p.rtu.copies ∧ (p.enterStop m cause flush).tst.poisoned = p.tst.poisoned ∧ (p.enterStop m cause
    flush).tst.mode = p.tst.mode ∧ (p.enterStop m cause flush).tst.pattern = p.tst.pattern ∧ (p.enterStop
    m cause flush).tst.capture = p.tst.capture ∧ (p.enterStop m cause flush).tst.log = p.tst.log ∧
    (p.enterStop m cause flush).tst.scrubPointer = p.tst.scrubPointer ∧ (p.enterStop m cause
    flush).tst.scrubTimer = p.tst.scrubTimer ∧ (p.enterStop m cause flush).tst.scrubPeriod =
    p.tst.scrubPeriod ∧ (p.enterStop m cause flush).plp.hunt = p.plp.hunt ∧ (p.enterStop m cause
    flush).plp.rx = p.plp.rx ∧ (p.enterStop m cause flush).plp.op = p.plp.op ∧ (p.enterStop m cause
    flush).plp.restarting = p.plp.restarting ∧ (p.enterStop m cause flush).nco.urgentLevel =
    p.nco.urgentLevel ∧ (p.enterStop m cause flush).agenda.period = p.agenda.period ∧ (p.enterStop m cause
    flush).agenda.walk = p.agenda.walk ∧ (p.enterStop m cause flush).agenda.store = p.agenda.store ∧
    (p.enterStop m cause flush).agenda.port = p.agenda.port ∧ (p.enterStop m cause flush).agenda.held =
    p.agenda.held ∧ (p.enterStop m cause flush).agenda.frames = p.agenda.frames ∧ (p.enterStop m cause
    flush).clock = p.clock ∧ (p.enterStop m cause flush).serial = p.serial ∧ (p.enterStop m cause
    flush).free = p.free := by
  unfold Part.enterStop
  (try dsimp only)
  (repeat' split) <;> simp

@[simp] theorem Part.enterSafe_keeps (cause : StopCause) (p : Part) :
    (p.enterSafe cause).fcu.armRefused = p.fcu.armRefused ∧ (p.enterSafe cause).fcu.keepSilent =
    p.fcu.keepSilent ∧ (p.enterSafe cause).fcu.keepTimer = p.fcu.keepTimer ∧ (p.enterSafe
    cause).fcu.keepLimit = p.fcu.keepLimit ∧ (p.enterSafe cause).fcu.silentAction = p.fcu.silentAction ∧
    (p.enterSafe cause).fcu.zoneBladeMax = p.fcu.zoneBladeMax ∧ (p.enterSafe cause).fcu.levelToSend =
    p.fcu.levelToSend ∧ (p.enterSafe cause).scr = p.scr ∧ (p.enterSafe cause).ltr = p.ltr ∧ (p.enterSafe
    cause).sq.refillArmed = p.sq.refillArmed ∧ (p.enterSafe cause).sq.starvedArmed = p.sq.starvedArmed ∧
    (p.enterSafe cause).sq.refillMark = p.sq.refillMark ∧ (p.enterSafe cause).msh.source = p.msh.source ∧
    (p.enterSafe cause).msh.credited = p.msh.credited ∧ (p.enterSafe cause).msh.wheels = p.msh.wheels ∧
    (p.enterSafe cause).msh.odometer = p.msh.odometer ∧ (p.enterSafe cause).msh.odometerCarry =
    p.msh.odometerCarry ∧ (p.enterSafe cause).msh.progress = p.msh.progress ∧ (p.enterSafe
    cause).msh.progressCarry = p.msh.progressCarry ∧ (p.enterSafe cause).msh.periodTimer =
    p.msh.periodTimer ∧ (p.enterSafe cause).msh.kilotick = p.msh.kilotick ∧ (p.enterSafe
    cause).msh.maneuverSpeed = p.msh.maneuverSpeed ∧ (p.enterSafe cause).dbm.bus =
    p.dbm.bus ∧ (p.enterSafe cause).dbm.number = p.dbm.number ∧ (p.enterSafe cause).dbm.resetStops =
    p.dbm.resetStops ∧ (p.enterSafe cause).dbm.responseLimit = p.dbm.responseLimit ∧ (p.enterSafe
    cause).dbm.holdLimit = p.dbm.holdLimit ∧ (p.enterSafe cause).sin = p.sin ∧ (p.enterSafe
    cause).hre.queue = p.hre.queue ∧ (p.enterSafe cause).hre.walk = p.hre.walk ∧ (p.enterSafe
    cause).rtu.applying = p.rtu.applying ∧ (p.enterSafe cause).rtu.params = p.rtu.params ∧ (p.enterSafe
    cause).rtu.distance = p.rtu.distance ∧ (p.enterSafe cause).rtu.dockKey = p.rtu.dockKey ∧ (p.enterSafe
    cause).rtu.copies = p.rtu.copies ∧ (p.enterSafe cause).tst.poisoned = p.tst.poisoned ∧ (p.enterSafe
    cause).tst.mode = p.tst.mode ∧ (p.enterSafe cause).tst.pattern = p.tst.pattern ∧ (p.enterSafe
    cause).tst.capture = p.tst.capture ∧ (p.enterSafe cause).tst.log = p.tst.log ∧ (p.enterSafe
    cause).tst.scrubPointer = p.tst.scrubPointer ∧ (p.enterSafe cause).tst.scrubTimer = p.tst.scrubTimer ∧
    (p.enterSafe cause).tst.scrubPeriod = p.tst.scrubPeriod ∧ (p.enterSafe cause).plp.hunt = p.plp.hunt ∧
    (p.enterSafe cause).plp.rx = p.plp.rx ∧ (p.enterSafe cause).plp.op = p.plp.op ∧ (p.enterSafe
    cause).plp.restarting = p.plp.restarting ∧ (p.enterSafe cause).nco.urgentLevel = p.nco.urgentLevel ∧
    (p.enterSafe cause).agenda.period = p.agenda.period ∧ (p.enterSafe cause).agenda.walk = p.agenda.walk
    ∧ (p.enterSafe cause).agenda.store = p.agenda.store ∧ (p.enterSafe cause).agenda.port = p.agenda.port
    ∧ (p.enterSafe cause).agenda.held = p.agenda.held ∧ (p.enterSafe cause).agenda.frames =
    p.agenda.frames ∧ (p.enterSafe cause).clock = p.clock ∧ (p.enterSafe cause).serial = p.serial ∧
    (p.enterSafe cause).free = p.free := by
  unfold Part.enterSafe
  (try dsimp only)
  (repeat' split) <;> simp

@[simp] theorem Part.homingFailed_keeps (p : Part) :
    p.homingFailed.fcu.armRefused = p.fcu.armRefused ∧ p.homingFailed.fcu.keepSilent = p.fcu.keepSilent ∧
    p.homingFailed.fcu.keepTimer = p.fcu.keepTimer ∧ p.homingFailed.fcu.keepLimit = p.fcu.keepLimit ∧
    p.homingFailed.fcu.silentAction = p.fcu.silentAction ∧ p.homingFailed.fcu.zoneBladeMax =
    p.fcu.zoneBladeMax ∧ p.homingFailed.fcu.levelToSend = p.fcu.levelToSend ∧ p.homingFailed.scr = p.scr ∧
    p.homingFailed.ltr = p.ltr ∧ p.homingFailed.sq.refillArmed = p.sq.refillArmed ∧
    p.homingFailed.sq.starvedArmed = p.sq.starvedArmed ∧ p.homingFailed.sq.refillMark = p.sq.refillMark ∧
    p.homingFailed.msh.source = p.msh.source ∧ p.homingFailed.msh.credited = p.msh.credited ∧
    p.homingFailed.msh.wheels = p.msh.wheels ∧ p.homingFailed.msh.odometer = p.msh.odometer ∧
    p.homingFailed.msh.odometerCarry = p.msh.odometerCarry ∧ p.homingFailed.msh.progress = p.msh.progress
    ∧ p.homingFailed.msh.progressCarry = p.msh.progressCarry ∧ p.homingFailed.msh.periodTimer =
    p.msh.periodTimer ∧ p.homingFailed.msh.kilotick = p.msh.kilotick ∧ p.homingFailed.msh.maneuverSpeed =
    p.msh.maneuverSpeed ∧ p.homingFailed.dbm.bus = p.dbm.bus
    ∧ p.homingFailed.dbm.number = p.dbm.number ∧ p.homingFailed.dbm.resetStops = p.dbm.resetStops ∧
    p.homingFailed.dbm.responseLimit = p.dbm.responseLimit ∧ p.homingFailed.dbm.holdLimit =
    p.dbm.holdLimit ∧ p.homingFailed.sin = p.sin ∧ p.homingFailed.hre.queue = p.hre.queue ∧
    p.homingFailed.hre.walk = p.hre.walk ∧ p.homingFailed.rtu.applying = p.rtu.applying ∧
    p.homingFailed.rtu.params = p.rtu.params ∧ p.homingFailed.rtu.distance = p.rtu.distance ∧
    p.homingFailed.rtu.dockKey = p.rtu.dockKey ∧ p.homingFailed.rtu.copies = p.rtu.copies ∧
    p.homingFailed.tst.poisoned = p.tst.poisoned ∧ p.homingFailed.tst.mode = p.tst.mode ∧
    p.homingFailed.tst.pattern = p.tst.pattern ∧ p.homingFailed.tst.capture = p.tst.capture ∧
    p.homingFailed.tst.log = p.tst.log ∧ p.homingFailed.tst.scrubPointer = p.tst.scrubPointer ∧
    p.homingFailed.tst.scrubTimer = p.tst.scrubTimer ∧ p.homingFailed.tst.scrubPeriod = p.tst.scrubPeriod
    ∧ p.homingFailed.plp.hunt = p.plp.hunt ∧ p.homingFailed.plp.rx = p.plp.rx ∧ p.homingFailed.plp.op =
    p.plp.op ∧ p.homingFailed.plp.restarting = p.plp.restarting ∧ p.homingFailed.nco.urgentLevel =
    p.nco.urgentLevel ∧ p.homingFailed.agenda.period = p.agenda.period ∧ p.homingFailed.agenda.walk =
    p.agenda.walk ∧ p.homingFailed.agenda.store = p.agenda.store ∧ p.homingFailed.agenda.port =
    p.agenda.port ∧ p.homingFailed.agenda.held = p.agenda.held ∧ p.homingFailed.agenda.frames =
    p.agenda.frames ∧ p.homingFailed.clock = p.clock ∧ p.homingFailed.serial = p.serial ∧
    p.homingFailed.free = p.free := by
  unfold Part.homingFailed
  (try dsimp only)
  (repeat' split) <;> simp

@[simp] theorem Part.dockFailed_keeps (p : Part) :
    p.dockFailed.fcu.armRefused = p.fcu.armRefused ∧ p.dockFailed.fcu.keepSilent = p.fcu.keepSilent ∧
    p.dockFailed.fcu.keepTimer = p.fcu.keepTimer ∧ p.dockFailed.fcu.keepLimit = p.fcu.keepLimit ∧
    p.dockFailed.fcu.silentAction = p.fcu.silentAction ∧ p.dockFailed.fcu.zoneBladeMax =
    p.fcu.zoneBladeMax ∧ p.dockFailed.fcu.levelToSend = p.fcu.levelToSend ∧ p.dockFailed.scr = p.scr ∧
    p.dockFailed.ltr = p.ltr ∧ p.dockFailed.sq.refillArmed = p.sq.refillArmed ∧
    p.dockFailed.sq.starvedArmed = p.sq.starvedArmed ∧ p.dockFailed.sq.refillMark = p.sq.refillMark ∧
    p.dockFailed.msh.source = p.msh.source ∧ p.dockFailed.msh.credited = p.msh.credited ∧
    p.dockFailed.msh.wheels = p.msh.wheels ∧ p.dockFailed.msh.odometer = p.msh.odometer ∧
    p.dockFailed.msh.odometerCarry = p.msh.odometerCarry ∧ p.dockFailed.msh.progress = p.msh.progress ∧
    p.dockFailed.msh.progressCarry = p.msh.progressCarry ∧ p.dockFailed.msh.periodTimer =
    p.msh.periodTimer ∧ p.dockFailed.msh.kilotick = p.msh.kilotick ∧ p.dockFailed.msh.maneuverSpeed =
    p.msh.maneuverSpeed ∧ p.dockFailed.dbm.bus = p.dbm.bus ∧
    p.dockFailed.dbm.number = p.dbm.number ∧ p.dockFailed.dbm.resetStops = p.dbm.resetStops ∧
    p.dockFailed.dbm.responseLimit = p.dbm.responseLimit ∧ p.dockFailed.dbm.holdLimit = p.dbm.holdLimit ∧
    p.dockFailed.sin = p.sin ∧ p.dockFailed.hre.queue = p.hre.queue ∧ p.dockFailed.hre.walk = p.hre.walk ∧
    p.dockFailed.rtu.applying = p.rtu.applying ∧ p.dockFailed.rtu.params = p.rtu.params ∧
    p.dockFailed.rtu.distance = p.rtu.distance ∧ p.dockFailed.rtu.dockKey = p.rtu.dockKey ∧
    p.dockFailed.rtu.copies = p.rtu.copies ∧ p.dockFailed.tst.poisoned = p.tst.poisoned ∧
    p.dockFailed.tst.mode = p.tst.mode ∧ p.dockFailed.tst.pattern = p.tst.pattern ∧
    p.dockFailed.tst.capture = p.tst.capture ∧ p.dockFailed.tst.log = p.tst.log ∧
    p.dockFailed.tst.scrubPointer = p.tst.scrubPointer ∧ p.dockFailed.tst.scrubTimer = p.tst.scrubTimer ∧
    p.dockFailed.tst.scrubPeriod = p.tst.scrubPeriod ∧ p.dockFailed.plp.hunt = p.plp.hunt ∧
    p.dockFailed.plp.rx = p.plp.rx ∧ p.dockFailed.plp.op = p.plp.op ∧ p.dockFailed.plp.restarting =
    p.plp.restarting ∧ p.dockFailed.nco.urgentLevel = p.nco.urgentLevel ∧ p.dockFailed.agenda.period =
    p.agenda.period ∧ p.dockFailed.agenda.walk = p.agenda.walk ∧ p.dockFailed.agenda.store =
    p.agenda.store ∧ p.dockFailed.agenda.port = p.agenda.port ∧ p.dockFailed.agenda.held = p.agenda.held ∧
    p.dockFailed.agenda.frames = p.agenda.frames ∧ p.dockFailed.clock = p.clock ∧ p.dockFailed.serial =
    p.serial ∧ p.dockFailed.free = p.free := by
  unfold Part.dockFailed
  (try dsimp only)
  (repeat' split) <;> simp

@[simp] theorem Part.contactConfirmed_keeps (p : Part) :
    p.contactConfirmed.fcu.armRefused = p.fcu.armRefused ∧ p.contactConfirmed.fcu.keepSilent =
    p.fcu.keepSilent ∧ p.contactConfirmed.fcu.keepTimer = p.fcu.keepTimer ∧
    p.contactConfirmed.fcu.keepLimit = p.fcu.keepLimit ∧ p.contactConfirmed.fcu.silentAction =
    p.fcu.silentAction ∧ p.contactConfirmed.fcu.zoneBladeMax = p.fcu.zoneBladeMax ∧
    p.contactConfirmed.fcu.levelToSend = p.fcu.levelToSend ∧ p.contactConfirmed.scr = p.scr ∧
    p.contactConfirmed.ltr = p.ltr ∧ p.contactConfirmed.sq.refillArmed = p.sq.refillArmed ∧
    p.contactConfirmed.sq.starvedArmed = p.sq.starvedArmed ∧ p.contactConfirmed.sq.refillMark =
    p.sq.refillMark ∧ p.contactConfirmed.msh.source = p.msh.source ∧ p.contactConfirmed.msh.credited =
    p.msh.credited ∧ p.contactConfirmed.msh.wheels = p.msh.wheels ∧ p.contactConfirmed.msh.odometer =
    p.msh.odometer ∧ p.contactConfirmed.msh.odometerCarry = p.msh.odometerCarry ∧
    p.contactConfirmed.msh.progress = p.msh.progress ∧ p.contactConfirmed.msh.progressCarry =
    p.msh.progressCarry ∧ p.contactConfirmed.msh.periodTimer = p.msh.periodTimer ∧
    p.contactConfirmed.msh.kilotick = p.msh.kilotick ∧ p.contactConfirmed.msh.maneuverSpeed =
    p.msh.maneuverSpeed ∧ p.contactConfirmed.dbm.bus = p.dbm.bus ∧
    p.contactConfirmed.dbm.number = p.dbm.number ∧ p.contactConfirmed.dbm.resetStops = p.dbm.resetStops ∧
    p.contactConfirmed.dbm.responseLimit = p.dbm.responseLimit ∧ p.contactConfirmed.dbm.holdLimit =
    p.dbm.holdLimit ∧ p.contactConfirmed.sin = p.sin ∧ p.contactConfirmed.hre.queue = p.hre.queue ∧
    p.contactConfirmed.hre.walk = p.hre.walk ∧ p.contactConfirmed.rtu.applying = p.rtu.applying ∧
    p.contactConfirmed.rtu.params = p.rtu.params ∧ p.contactConfirmed.rtu.distance = p.rtu.distance ∧
    p.contactConfirmed.rtu.dockKey = p.rtu.dockKey ∧ p.contactConfirmed.rtu.copies = p.rtu.copies ∧
    p.contactConfirmed.tst.poisoned = p.tst.poisoned ∧ p.contactConfirmed.tst.mode = p.tst.mode ∧
    p.contactConfirmed.tst.pattern = p.tst.pattern ∧ p.contactConfirmed.tst.capture = p.tst.capture ∧
    p.contactConfirmed.tst.log = p.tst.log ∧ p.contactConfirmed.tst.scrubPointer = p.tst.scrubPointer ∧
    p.contactConfirmed.tst.scrubTimer = p.tst.scrubTimer ∧ p.contactConfirmed.tst.scrubPeriod =
    p.tst.scrubPeriod ∧ p.contactConfirmed.plp.hunt = p.plp.hunt ∧ p.contactConfirmed.plp.rx = p.plp.rx ∧
    p.contactConfirmed.plp.op = p.plp.op ∧ p.contactConfirmed.plp.restarting = p.plp.restarting ∧
    p.contactConfirmed.nco.urgentLevel = p.nco.urgentLevel ∧ p.contactConfirmed.agenda.period =
    p.agenda.period ∧ p.contactConfirmed.agenda.walk = p.agenda.walk ∧ p.contactConfirmed.agenda.store =
    p.agenda.store ∧ p.contactConfirmed.agenda.port = p.agenda.port ∧ p.contactConfirmed.agenda.held =
    p.agenda.held ∧ p.contactConfirmed.agenda.frames = p.agenda.frames ∧ p.contactConfirmed.clock =
    p.clock ∧ p.contactConfirmed.serial = p.serial ∧ p.contactConfirmed.free = p.free := by
  unfold Part.contactConfirmed
  (try dsimp only)
  (repeat' split) <;> simp

@[simp] theorem Part.contactLost_keeps (voltage : Nat) (p : Part) :
    (p.contactLost voltage).fcu.armRefused = p.fcu.armRefused ∧ (p.contactLost voltage).fcu.keepSilent =
    p.fcu.keepSilent ∧ (p.contactLost voltage).fcu.keepTimer = p.fcu.keepTimer ∧ (p.contactLost
    voltage).fcu.keepLimit = p.fcu.keepLimit ∧ (p.contactLost voltage).fcu.silentAction =
    p.fcu.silentAction ∧ (p.contactLost voltage).fcu.zoneBladeMax = p.fcu.zoneBladeMax ∧ (p.contactLost
    voltage).fcu.levelToSend = p.fcu.levelToSend ∧ (p.contactLost voltage).scr = p.scr ∧ (p.contactLost
    voltage).ltr = p.ltr ∧ (p.contactLost voltage).sq.refillArmed = p.sq.refillArmed ∧ (p.contactLost
    voltage).sq.starvedArmed = p.sq.starvedArmed ∧ (p.contactLost voltage).sq.refillMark = p.sq.refillMark
    ∧ (p.contactLost voltage).msh.source = p.msh.source ∧ (p.contactLost voltage).msh.credited =
    p.msh.credited ∧ (p.contactLost voltage).msh.wheels = p.msh.wheels ∧ (p.contactLost
    voltage).msh.odometer = p.msh.odometer ∧ (p.contactLost voltage).msh.odometerCarry =
    p.msh.odometerCarry ∧ (p.contactLost voltage).msh.progress = p.msh.progress ∧ (p.contactLost
    voltage).msh.progressCarry = p.msh.progressCarry ∧ (p.contactLost voltage).msh.periodTimer =
    p.msh.periodTimer ∧ (p.contactLost voltage).msh.kilotick = p.msh.kilotick ∧ (p.contactLost
    voltage).msh.maneuverSpeed = p.msh.maneuverSpeed ∧ (p.contactLost
    voltage).dbm.bus = p.dbm.bus ∧ (p.contactLost voltage).dbm.number = p.dbm.number ∧ (p.contactLost
    voltage).dbm.resetStops = p.dbm.resetStops ∧ (p.contactLost voltage).dbm.responseLimit =
    p.dbm.responseLimit ∧ (p.contactLost voltage).dbm.holdLimit = p.dbm.holdLimit ∧ (p.contactLost
    voltage).sin = p.sin ∧ (p.contactLost voltage).hre.queue = p.hre.queue ∧ (p.contactLost
    voltage).hre.walk = p.hre.walk ∧ (p.contactLost voltage).rtu.applying = p.rtu.applying ∧
    (p.contactLost voltage).rtu.params = p.rtu.params ∧ (p.contactLost voltage).rtu.distance =
    p.rtu.distance ∧ (p.contactLost voltage).rtu.dockKey = p.rtu.dockKey ∧ (p.contactLost
    voltage).rtu.copies = p.rtu.copies ∧ (p.contactLost voltage).tst.poisoned = p.tst.poisoned ∧
    (p.contactLost voltage).tst.mode = p.tst.mode ∧ (p.contactLost voltage).tst.pattern = p.tst.pattern ∧
    (p.contactLost voltage).tst.capture = p.tst.capture ∧ (p.contactLost voltage).tst.log = p.tst.log ∧
    (p.contactLost voltage).tst.scrubPointer = p.tst.scrubPointer ∧ (p.contactLost voltage).tst.scrubTimer
    = p.tst.scrubTimer ∧ (p.contactLost voltage).tst.scrubPeriod = p.tst.scrubPeriod ∧ (p.contactLost
    voltage).plp.hunt = p.plp.hunt ∧ (p.contactLost voltage).plp.rx = p.plp.rx ∧ (p.contactLost
    voltage).plp.op = p.plp.op ∧ (p.contactLost voltage).plp.restarting = p.plp.restarting ∧
    (p.contactLost voltage).nco.urgentLevel = p.nco.urgentLevel ∧ (p.contactLost voltage).agenda.period =
    p.agenda.period ∧ (p.contactLost voltage).agenda.walk = p.agenda.walk ∧ (p.contactLost
    voltage).agenda.store = p.agenda.store ∧ (p.contactLost voltage).agenda.port = p.agenda.port ∧
    (p.contactLost voltage).agenda.held = p.agenda.held ∧ (p.contactLost voltage).agenda.frames =
    p.agenda.frames ∧ (p.contactLost voltage).clock = p.clock ∧ (p.contactLost voltage).serial = p.serial
    ∧ (p.contactLost voltage).free = p.free := by
  unfold Part.contactLost
  (try dsimp only)
  (repeat' split) <;> simp

@[simp] theorem Part.attemptFailed_keeps (cause : Nat) (p : Part) :
    (p.attemptFailed cause).fcu = p.fcu ∧ (p.attemptFailed cause).scr = p.scr ∧ (p.attemptFailed
    cause).ltr = p.ltr ∧ (p.attemptFailed cause).sq = p.sq ∧ (p.attemptFailed cause).msh = p.msh ∧
    (p.attemptFailed cause).dbm = p.dbm ∧ (p.attemptFailed cause).sin = p.sin ∧ (p.attemptFailed
    cause).hre = p.hre ∧ (p.attemptFailed cause).rtu.stack = p.rtu.stack ∧ (p.attemptFailed
    cause).rtu.overflow = p.rtu.overflow ∧ (p.attemptFailed cause).rtu.crossings = p.rtu.crossings ∧
    (p.attemptFailed cause).rtu.applying = p.rtu.applying ∧ (p.attemptFailed cause).rtu.planDue =
    p.rtu.planDue ∧ (p.attemptFailed cause).rtu.planning = p.rtu.planning ∧ (p.attemptFailed
    cause).rtu.leg = p.rtu.leg ∧ (p.attemptFailed cause).rtu.params = p.rtu.params ∧ (p.attemptFailed
    cause).rtu.copies = p.rtu.copies ∧ (p.attemptFailed cause).tst = p.tst ∧ (p.attemptFailed
    cause).plp.hunt = p.plp.hunt ∧ (p.attemptFailed cause).plp.rx = p.plp.rx ∧ (p.attemptFailed
    cause).plp.op = p.plp.op ∧ (p.attemptFailed cause).plp.restarting = p.plp.restarting ∧
    (p.attemptFailed cause).nco.urgentLevel = p.nco.urgentLevel ∧ (p.attemptFailed cause).agenda.removed =
    p.agenda.removed ∧ (p.attemptFailed cause).agenda.starved = p.agenda.starved ∧ (p.attemptFailed
    cause).agenda.returning = p.agenda.returning ∧ (p.attemptFailed cause).agenda.period = p.agenda.period
    ∧ (p.attemptFailed cause).agenda.walk = p.agenda.walk ∧ (p.attemptFailed cause).agenda.bus =
    p.agenda.bus ∧ (p.attemptFailed cause).agenda.store = p.agenda.store ∧ (p.attemptFailed
    cause).agenda.port = p.agenda.port ∧ (p.attemptFailed cause).agenda.held = p.agenda.held ∧
    (p.attemptFailed cause).agenda.frames = p.agenda.frames ∧ (p.attemptFailed cause).clock = p.clock ∧
    (p.attemptFailed cause).free = p.free := by
  unfold Part.attemptFailed
  (try dsimp only)
  (repeat' split) <;> simp

@[simp] theorem Part.backoffEnded_keeps (p : Part) :
    p.backoffEnded.fcu.armRefused = p.fcu.armRefused ∧ p.backoffEnded.fcu.keepSilent = p.fcu.keepSilent ∧
    p.backoffEnded.fcu.keepTimer = p.fcu.keepTimer ∧ p.backoffEnded.fcu.keepLimit = p.fcu.keepLimit ∧
    p.backoffEnded.fcu.silentAction = p.fcu.silentAction ∧ p.backoffEnded.fcu.zoneBladeMax =
    p.fcu.zoneBladeMax ∧ p.backoffEnded.fcu.levelToSend = p.fcu.levelToSend ∧ p.backoffEnded.scr = p.scr ∧
    p.backoffEnded.ltr = p.ltr ∧ p.backoffEnded.sq.refillArmed = p.sq.refillArmed ∧
    p.backoffEnded.sq.starvedArmed = p.sq.starvedArmed ∧ p.backoffEnded.sq.refillMark = p.sq.refillMark ∧
    p.backoffEnded.msh.source = p.msh.source ∧ p.backoffEnded.msh.credited = p.msh.credited ∧
    p.backoffEnded.msh.wheels = p.msh.wheels ∧ p.backoffEnded.msh.odometer = p.msh.odometer ∧
    p.backoffEnded.msh.odometerCarry = p.msh.odometerCarry ∧ p.backoffEnded.msh.progress = p.msh.progress
    ∧ p.backoffEnded.msh.progressCarry = p.msh.progressCarry ∧ p.backoffEnded.msh.periodTimer =
    p.msh.periodTimer ∧ p.backoffEnded.msh.kilotick = p.msh.kilotick ∧ p.backoffEnded.msh.maneuverSpeed =
    p.msh.maneuverSpeed ∧ p.backoffEnded.dbm.bus = p.dbm.bus
    ∧ p.backoffEnded.dbm.number = p.dbm.number ∧ p.backoffEnded.dbm.resetStops = p.dbm.resetStops ∧
    p.backoffEnded.dbm.responseLimit = p.dbm.responseLimit ∧ p.backoffEnded.dbm.holdLimit =
    p.dbm.holdLimit ∧ p.backoffEnded.sin = p.sin ∧ p.backoffEnded.hre.queue = p.hre.queue ∧
    p.backoffEnded.hre.walk = p.hre.walk ∧ p.backoffEnded.rtu.applying = p.rtu.applying ∧
    p.backoffEnded.rtu.copies = p.rtu.copies ∧ p.backoffEnded.tst.poisoned = p.tst.poisoned ∧
    p.backoffEnded.tst.mode = p.tst.mode ∧ p.backoffEnded.tst.pattern = p.tst.pattern ∧
    p.backoffEnded.tst.capture = p.tst.capture ∧ p.backoffEnded.tst.log = p.tst.log ∧
    p.backoffEnded.tst.scrubPointer = p.tst.scrubPointer ∧ p.backoffEnded.tst.scrubTimer =
    p.tst.scrubTimer ∧ p.backoffEnded.tst.scrubPeriod = p.tst.scrubPeriod ∧ p.backoffEnded.plp.hunt =
    p.plp.hunt ∧ p.backoffEnded.plp.rx = p.plp.rx ∧ p.backoffEnded.plp.op = p.plp.op ∧
    p.backoffEnded.plp.restarting = p.plp.restarting ∧ p.backoffEnded.nco.urgentLevel = p.nco.urgentLevel
    ∧ p.backoffEnded.agenda.period = p.agenda.period ∧ p.backoffEnded.agenda.walk = p.agenda.walk ∧
    p.backoffEnded.agenda.store = p.agenda.store ∧ p.backoffEnded.agenda.port = p.agenda.port ∧
    p.backoffEnded.agenda.held = p.agenda.held ∧ p.backoffEnded.agenda.frames = p.agenda.frames ∧
    p.backoffEnded.clock = p.clock ∧ p.backoffEnded.free = p.free := by
  unfold Part.backoffEnded
  (try dsimp only)
  (repeat' split) <;> simp

@[simp] theorem Part.enterHoming_keeps (p : Part) :
    p.enterHoming.fcu.stopCause = p.fcu.stopCause ∧ p.enterHoming.fcu.hazardLevel = p.fcu.hazardLevel ∧
    p.enterHoming.fcu.blade = p.fcu.blade ∧ p.enterHoming.fcu.armRefused = p.fcu.armRefused ∧
    p.enterHoming.fcu.permission = p.fcu.permission ∧ p.enterHoming.fcu.keepSilent = p.fcu.keepSilent ∧
    p.enterHoming.fcu.keepTimer = p.fcu.keepTimer ∧ p.enterHoming.fcu.keepLimit = p.fcu.keepLimit ∧
    p.enterHoming.fcu.silentAction = p.fcu.silentAction ∧ p.enterHoming.fcu.zoneBladeMax =
    p.fcu.zoneBladeMax ∧ p.enterHoming.fcu.levelToSend = p.fcu.levelToSend ∧ p.enterHoming.scr = p.scr ∧
    p.enterHoming.ltr = p.ltr ∧ p.enterHoming.sq.refillArmed = p.sq.refillArmed ∧
    p.enterHoming.sq.starvedArmed = p.sq.starvedArmed ∧ p.enterHoming.sq.refillMark = p.sq.refillMark ∧
    p.enterHoming.msh = p.msh ∧ p.enterHoming.dbm = p.dbm ∧ p.enterHoming.sin = p.sin ∧ p.enterHoming.hre
    = p.hre ∧ p.enterHoming.rtu.stack = p.rtu.stack ∧ p.enterHoming.rtu.overflow = p.rtu.overflow ∧
    p.enterHoming.rtu.crossings = p.rtu.crossings ∧ p.enterHoming.rtu.applying = p.rtu.applying ∧
    p.enterHoming.rtu.planning = p.rtu.planning ∧ p.enterHoming.rtu.leg = p.rtu.leg ∧
    p.enterHoming.rtu.activity = p.rtu.activity ∧ p.enterHoming.rtu.params = p.rtu.params ∧
    p.enterHoming.rtu.distance = p.rtu.distance ∧ p.enterHoming.rtu.finalApproach = p.rtu.finalApproach ∧
    p.enterHoming.rtu.dockKey = p.rtu.dockKey ∧ p.enterHoming.rtu.attempts = p.rtu.attempts ∧
    p.enterHoming.rtu.settle = p.rtu.settle ∧ p.enterHoming.rtu.copies = p.rtu.copies ∧ p.enterHoming.tst
    = p.tst ∧ p.enterHoming.plp.hunt = p.plp.hunt ∧ p.enterHoming.plp.rx = p.plp.rx ∧ p.enterHoming.plp.op
    = p.plp.op ∧ p.enterHoming.plp.restarting = p.plp.restarting ∧ p.enterHoming.nco.urgentLevel =
    p.nco.urgentLevel ∧ p.enterHoming.agenda.period = p.agenda.period ∧ p.enterHoming.agenda.walk =
    p.agenda.walk ∧ p.enterHoming.agenda.bus = p.agenda.bus ∧ p.enterHoming.agenda.store = p.agenda.store
    ∧ p.enterHoming.agenda.port = p.agenda.port ∧ p.enterHoming.agenda.held = p.agenda.held ∧
    p.enterHoming.agenda.frames = p.agenda.frames ∧ p.enterHoming.clock = p.clock ∧ p.enterHoming.serial =
    p.serial ∧ p.enterHoming.free = p.free := by
  unfold Part.enterHoming
  (try dsimp only)
  (repeat' split) <;> simp

@[simp] theorem Part.enterDocking_keeps (p : Part) :
    p.enterDocking.fcu.stopCause = p.fcu.stopCause ∧ p.enterDocking.fcu.hazardLevel = p.fcu.hazardLevel ∧
    p.enterDocking.fcu.blade = p.fcu.blade ∧ p.enterDocking.fcu.armRefused = p.fcu.armRefused ∧
    p.enterDocking.fcu.permission = p.fcu.permission ∧ p.enterDocking.fcu.keepSilent = p.fcu.keepSilent ∧
    p.enterDocking.fcu.keepTimer = p.fcu.keepTimer ∧ p.enterDocking.fcu.keepLimit = p.fcu.keepLimit ∧
    p.enterDocking.fcu.silentAction = p.fcu.silentAction ∧ p.enterDocking.fcu.zoneBladeMax =
    p.fcu.zoneBladeMax ∧ p.enterDocking.fcu.levelToSend = p.fcu.levelToSend ∧ p.enterDocking.scr = p.scr ∧
    p.enterDocking.ltr = p.ltr ∧ p.enterDocking.sq = p.sq ∧ p.enterDocking.msh = p.msh ∧
    p.enterDocking.dbm = p.dbm ∧ p.enterDocking.sin = p.sin ∧ p.enterDocking.hre = p.hre ∧
    p.enterDocking.rtu.stack = p.rtu.stack ∧ p.enterDocking.rtu.overflow = p.rtu.overflow ∧
    p.enterDocking.rtu.crossings = p.rtu.crossings ∧ p.enterDocking.rtu.applying = p.rtu.applying ∧
    p.enterDocking.rtu.copies = p.rtu.copies ∧ p.enterDocking.tst.poisoned = p.tst.poisoned ∧
    p.enterDocking.tst.mode = p.tst.mode ∧ p.enterDocking.tst.pattern = p.tst.pattern ∧
    p.enterDocking.tst.capture = p.tst.capture ∧ p.enterDocking.tst.log = p.tst.log ∧
    p.enterDocking.tst.scrubPointer = p.tst.scrubPointer ∧ p.enterDocking.tst.scrubTimer =
    p.tst.scrubTimer ∧ p.enterDocking.tst.scrubPeriod = p.tst.scrubPeriod ∧ p.enterDocking.plp.hunt =
    p.plp.hunt ∧ p.enterDocking.plp.rx = p.plp.rx ∧ p.enterDocking.plp.op = p.plp.op ∧
    p.enterDocking.plp.restarting = p.plp.restarting ∧ p.enterDocking.nco.urgentLevel = p.nco.urgentLevel
    ∧ p.enterDocking.agenda.removed = p.agenda.removed ∧ p.enterDocking.agenda.period = p.agenda.period ∧
    p.enterDocking.agenda.walk = p.agenda.walk ∧ p.enterDocking.agenda.bus = p.agenda.bus ∧
    p.enterDocking.agenda.store = p.agenda.store ∧ p.enterDocking.agenda.port = p.agenda.port ∧
    p.enterDocking.agenda.held = p.agenda.held ∧ p.enterDocking.agenda.frames = p.agenda.frames ∧
    p.enterDocking.clock = p.clock ∧ p.enterDocking.free = p.free := by
  unfold Part.enterDocking
  (try dsimp only)
  (repeat' split) <;> simp

@[simp] theorem Part.enterRun_keeps (p : Part) :
    p.enterRun.fcu.stopCause = p.fcu.stopCause ∧ p.enterRun.fcu.hazardLevel = p.fcu.hazardLevel ∧
    p.enterRun.fcu.permission = p.fcu.permission ∧ p.enterRun.fcu.keepSilent = p.fcu.keepSilent ∧
    p.enterRun.fcu.keepTimer = p.fcu.keepTimer ∧ p.enterRun.fcu.keepLimit = p.fcu.keepLimit ∧
    p.enterRun.fcu.silentAction = p.fcu.silentAction ∧ p.enterRun.fcu.zoneBladeMax = p.fcu.zoneBladeMax ∧
    p.enterRun.fcu.levelToSend = p.fcu.levelToSend ∧ p.enterRun.scr = p.scr ∧ p.enterRun.ltr = p.ltr ∧
    p.enterRun.sq.refillArmed = p.sq.refillArmed ∧ p.enterRun.sq.refillMark = p.sq.refillMark ∧
    p.enterRun.msh.previousLeft = p.msh.previousLeft ∧ p.enterRun.msh.previousRight = p.msh.previousRight
    ∧ p.enterRun.msh.errorMemory = p.msh.errorMemory ∧ p.enterRun.msh.source = p.msh.source ∧
    p.enterRun.msh.credited = p.msh.credited ∧ p.enterRun.msh.wheels = p.msh.wheels ∧
    p.enterRun.msh.odometer = p.msh.odometer ∧ p.enterRun.msh.odometerCarry = p.msh.odometerCarry ∧
    p.enterRun.msh.progressCarry = p.msh.progressCarry ∧ p.enterRun.msh.periodTimer = p.msh.periodTimer ∧
    p.enterRun.msh.computation = p.msh.computation ∧ p.enterRun.msh.kilotick = p.msh.kilotick ∧
    p.enterRun.msh.maneuverSpeed = p.msh.maneuverSpeed ∧
    p.enterRun.dbm.bus = p.dbm.bus ∧ p.enterRun.dbm.number = p.dbm.number ∧ p.enterRun.dbm.resetStops =
    p.dbm.resetStops ∧ p.enterRun.dbm.responseLimit = p.dbm.responseLimit ∧ p.enterRun.dbm.holdLimit =
    p.dbm.holdLimit ∧ p.enterRun.sin = p.sin ∧ p.enterRun.hre = p.hre ∧ p.enterRun.rtu = p.rtu ∧
    p.enterRun.tst = p.tst ∧ p.enterRun.plp.hunt = p.plp.hunt ∧ p.enterRun.plp.rx = p.plp.rx ∧
    p.enterRun.plp.op = p.plp.op ∧ p.enterRun.plp.restarting = p.plp.restarting ∧
    p.enterRun.nco.urgentLevel = p.nco.urgentLevel ∧ p.enterRun.agenda.period = p.agenda.period ∧
    p.enterRun.agenda.walk = p.agenda.walk ∧ p.enterRun.agenda.store = p.agenda.store ∧
    p.enterRun.agenda.port = p.agenda.port ∧ p.enterRun.agenda.held = p.agenda.held ∧
    p.enterRun.agenda.frames = p.agenda.frames ∧ p.enterRun.clock = p.clock ∧ p.enterRun.serial = p.serial
    ∧ p.enterRun.free = p.free := by
  unfold Part.enterRun
  (try dsimp only)
  (repeat' split) <;> simp

@[simp] theorem Part.suspendReturn_keeps (resume : Resume) (p : Part) :
    (p.suspendReturn resume).fcu = p.fcu ∧ (p.suspendReturn resume).scr = p.scr ∧ (p.suspendReturn
    resume).ltr = p.ltr ∧ (p.suspendReturn resume).sq = p.sq ∧ (p.suspendReturn resume).msh = p.msh ∧
    (p.suspendReturn resume).dbm = p.dbm ∧ (p.suspendReturn resume).sin = p.sin ∧ (p.suspendReturn
    resume).hre = p.hre ∧ (p.suspendReturn resume).rtu.stack = p.rtu.stack ∧ (p.suspendReturn
    resume).rtu.overflow = p.rtu.overflow ∧ (p.suspendReturn resume).rtu.crossings = p.rtu.crossings ∧
    (p.suspendReturn resume).rtu.applying = p.rtu.applying ∧ (p.suspendReturn resume).rtu.planDue =
    p.rtu.planDue ∧ (p.suspendReturn resume).rtu.leg = p.rtu.leg ∧ (p.suspendReturn resume).rtu.activity =
    p.rtu.activity ∧ (p.suspendReturn resume).rtu.params = p.rtu.params ∧ (p.suspendReturn
    resume).rtu.distance = p.rtu.distance ∧ (p.suspendReturn resume).rtu.dockKey = p.rtu.dockKey ∧
    (p.suspendReturn resume).rtu.attempts = p.rtu.attempts ∧ (p.suspendReturn resume).rtu.copies =
    p.rtu.copies ∧ (p.suspendReturn resume).tst.poisoned = p.tst.poisoned ∧ (p.suspendReturn
    resume).tst.mode = p.tst.mode ∧ (p.suspendReturn resume).tst.pattern = p.tst.pattern ∧
    (p.suspendReturn resume).tst.capture = p.tst.capture ∧ (p.suspendReturn resume).tst.log = p.tst.log ∧
    (p.suspendReturn resume).tst.scrubPointer = p.tst.scrubPointer ∧ (p.suspendReturn
    resume).tst.scrubTimer = p.tst.scrubTimer ∧ (p.suspendReturn resume).tst.scrubPeriod =
    p.tst.scrubPeriod ∧ (p.suspendReturn resume).plp = p.plp ∧ (p.suspendReturn resume).nco = p.nco ∧
    (p.suspendReturn resume).agenda.removed = p.agenda.removed ∧ (p.suspendReturn resume).agenda.starved =
    p.agenda.starved ∧ (p.suspendReturn resume).agenda.returning = p.agenda.returning ∧ (p.suspendReturn
    resume).agenda.period = p.agenda.period ∧ (p.suspendReturn resume).agenda.walk = p.agenda.walk ∧
    (p.suspendReturn resume).agenda.bus = p.agenda.bus ∧ (p.suspendReturn resume).agenda.store =
    p.agenda.store ∧ (p.suspendReturn resume).agenda.port = p.agenda.port ∧ (p.suspendReturn
    resume).agenda.held = p.agenda.held ∧ (p.suspendReturn resume).agenda.frames = p.agenda.frames ∧
    (p.suspendReturn resume).clock = p.clock ∧ (p.suspendReturn resume).serial = p.serial ∧
    (p.suspendReturn resume).free = p.free := by
  unfold Part.suspendReturn
  (try dsimp only)
  (repeat' split) <;> simp

@[simp] theorem Part.enterManeuver_keeps (p : Part) :
    p.enterManeuver.fcu.stopCause = p.fcu.stopCause ∧ p.enterManeuver.fcu.hazardLevel = p.fcu.hazardLevel
    ∧ p.enterManeuver.fcu.blade = p.fcu.blade ∧ p.enterManeuver.fcu.armRefused = p.fcu.armRefused ∧
    p.enterManeuver.fcu.permission = p.fcu.permission ∧ p.enterManeuver.fcu.keepSilent = p.fcu.keepSilent
    ∧ p.enterManeuver.fcu.keepTimer = p.fcu.keepTimer ∧ p.enterManeuver.fcu.keepLimit = p.fcu.keepLimit ∧
    p.enterManeuver.fcu.silentAction = p.fcu.silentAction ∧ p.enterManeuver.fcu.zoneBladeMax =
    p.fcu.zoneBladeMax ∧ p.enterManeuver.fcu.levelToSend = p.fcu.levelToSend ∧ p.enterManeuver.scr = p.scr
    ∧ p.enterManeuver.ltr = p.ltr ∧ p.enterManeuver.sq = p.sq ∧ p.enterManeuver.msh = p.msh ∧
    p.enterManeuver.dbm = p.dbm ∧ p.enterManeuver.sin = p.sin ∧ p.enterManeuver.hre = p.hre ∧
    p.enterManeuver.rtu.stack = p.rtu.stack ∧ p.enterManeuver.rtu.overflow = p.rtu.overflow ∧
    p.enterManeuver.rtu.crossings = p.rtu.crossings ∧ p.enterManeuver.rtu.applying = p.rtu.applying ∧
    p.enterManeuver.rtu.planDue = p.rtu.planDue ∧ p.enterManeuver.rtu.leg = p.rtu.leg ∧
    p.enterManeuver.rtu.activity = p.rtu.activity ∧ p.enterManeuver.rtu.params = p.rtu.params ∧
    p.enterManeuver.rtu.distance = p.rtu.distance ∧ p.enterManeuver.rtu.dockKey = p.rtu.dockKey ∧
    p.enterManeuver.rtu.attempts = p.rtu.attempts ∧ p.enterManeuver.rtu.copies = p.rtu.copies ∧
    p.enterManeuver.tst.poisoned = p.tst.poisoned ∧ p.enterManeuver.tst.mode = p.tst.mode ∧
    p.enterManeuver.tst.pattern = p.tst.pattern ∧ p.enterManeuver.tst.capture = p.tst.capture ∧
    p.enterManeuver.tst.log = p.tst.log ∧ p.enterManeuver.tst.scrubPointer = p.tst.scrubPointer ∧
    p.enterManeuver.tst.scrubTimer = p.tst.scrubTimer ∧ p.enterManeuver.tst.scrubPeriod =
    p.tst.scrubPeriod ∧ p.enterManeuver.plp.hunt = p.plp.hunt ∧ p.enterManeuver.plp.rx = p.plp.rx ∧
    p.enterManeuver.plp.op = p.plp.op ∧ p.enterManeuver.plp.restarting = p.plp.restarting ∧
    p.enterManeuver.nco.urgentLevel = p.nco.urgentLevel ∧ p.enterManeuver.agenda.removed =
    p.agenda.removed ∧ p.enterManeuver.agenda.period = p.agenda.period ∧ p.enterManeuver.agenda.walk =
    p.agenda.walk ∧ p.enterManeuver.agenda.bus = p.agenda.bus ∧ p.enterManeuver.agenda.store =
    p.agenda.store ∧ p.enterManeuver.agenda.port = p.agenda.port ∧ p.enterManeuver.agenda.held =
    p.agenda.held ∧ p.enterManeuver.agenda.frames = p.agenda.frames ∧ p.enterManeuver.clock = p.clock ∧
    p.enterManeuver.serial = p.serial ∧ p.enterManeuver.free = p.free := by
  unfold Part.enterManeuver
  (try dsimp only)
  (repeat' split) <;> simp

@[simp] theorem Part.resumeReturn_keeps (resume : Resume) (p : Part) :
    (p.resumeReturn resume).fcu.armRefused = p.fcu.armRefused ∧ (p.resumeReturn resume).fcu.keepSilent =
    p.fcu.keepSilent ∧ (p.resumeReturn resume).fcu.keepTimer = p.fcu.keepTimer ∧ (p.resumeReturn
    resume).fcu.keepLimit = p.fcu.keepLimit ∧ (p.resumeReturn resume).fcu.silentAction =
    p.fcu.silentAction ∧ (p.resumeReturn resume).fcu.zoneBladeMax = p.fcu.zoneBladeMax ∧ (p.resumeReturn
    resume).fcu.levelToSend = p.fcu.levelToSend ∧ (p.resumeReturn resume).scr = p.scr ∧ (p.resumeReturn
    resume).ltr = p.ltr ∧ (p.resumeReturn resume).sq.refillArmed = p.sq.refillArmed ∧ (p.resumeReturn
    resume).sq.starvedArmed = p.sq.starvedArmed ∧ (p.resumeReturn resume).sq.refillMark = p.sq.refillMark
    ∧ (p.resumeReturn resume).msh.source = p.msh.source ∧ (p.resumeReturn resume).msh.credited =
    p.msh.credited ∧ (p.resumeReturn resume).msh.wheels = p.msh.wheels ∧ (p.resumeReturn
    resume).msh.odometer = p.msh.odometer ∧ (p.resumeReturn resume).msh.odometerCarry =
    p.msh.odometerCarry ∧ (p.resumeReturn resume).msh.progress = p.msh.progress ∧ (p.resumeReturn
    resume).msh.progressCarry = p.msh.progressCarry ∧ (p.resumeReturn resume).msh.periodTimer =
    p.msh.periodTimer ∧ (p.resumeReturn resume).msh.kilotick = p.msh.kilotick ∧ (p.resumeReturn
    resume).msh.maneuverSpeed = p.msh.maneuverSpeed ∧ (p.resumeReturn
    resume).dbm.bus = p.dbm.bus ∧ (p.resumeReturn resume).dbm.number = p.dbm.number ∧ (p.resumeReturn
    resume).dbm.resetStops = p.dbm.resetStops ∧ (p.resumeReturn resume).dbm.responseLimit =
    p.dbm.responseLimit ∧ (p.resumeReturn resume).dbm.holdLimit = p.dbm.holdLimit ∧ (p.resumeReturn
    resume).sin = p.sin ∧ (p.resumeReturn resume).hre.queue = p.hre.queue ∧ (p.resumeReturn
    resume).hre.walk = p.hre.walk ∧ (p.resumeReturn resume).rtu.applying = p.rtu.applying ∧
    (p.resumeReturn resume).rtu.copies = p.rtu.copies ∧ (p.resumeReturn resume).tst.poisoned =
    p.tst.poisoned ∧ (p.resumeReturn resume).tst.mode = p.tst.mode ∧ (p.resumeReturn resume).tst.pattern =
    p.tst.pattern ∧ (p.resumeReturn resume).tst.capture = p.tst.capture ∧ (p.resumeReturn resume).tst.log
    = p.tst.log ∧ (p.resumeReturn resume).tst.scrubPointer = p.tst.scrubPointer ∧ (p.resumeReturn
    resume).tst.scrubTimer = p.tst.scrubTimer ∧ (p.resumeReturn resume).tst.scrubPeriod =
    p.tst.scrubPeriod ∧ (p.resumeReturn resume).plp.hunt = p.plp.hunt ∧ (p.resumeReturn resume).plp.rx =
    p.plp.rx ∧ (p.resumeReturn resume).plp.op = p.plp.op ∧ (p.resumeReturn resume).plp.restarting =
    p.plp.restarting ∧ (p.resumeReturn resume).nco.urgentLevel = p.nco.urgentLevel ∧ (p.resumeReturn
    resume).agenda.period = p.agenda.period ∧ (p.resumeReturn resume).agenda.walk = p.agenda.walk ∧
    (p.resumeReturn resume).agenda.store = p.agenda.store ∧ (p.resumeReturn resume).agenda.port =
    p.agenda.port ∧ (p.resumeReturn resume).agenda.held = p.agenda.held ∧ (p.resumeReturn
    resume).agenda.frames = p.agenda.frames ∧ (p.resumeReturn resume).clock = p.clock ∧ (p.resumeReturn
    resume).free = p.free := by
  unfold Part.resumeReturn
  (try dsimp only)
  (repeat' split) <;> simp

@[simp] theorem Part.leaveManeuver_keeps (quiet : Bool) (p : Part) :
    (p.leaveManeuver quiet).fcu.armRefused = p.fcu.armRefused ∧ (p.leaveManeuver quiet).fcu.keepSilent =
    p.fcu.keepSilent ∧ (p.leaveManeuver quiet).fcu.keepTimer = p.fcu.keepTimer ∧ (p.leaveManeuver
    quiet).fcu.keepLimit = p.fcu.keepLimit ∧ (p.leaveManeuver quiet).fcu.silentAction = p.fcu.silentAction
    ∧ (p.leaveManeuver quiet).fcu.zoneBladeMax = p.fcu.zoneBladeMax ∧ (p.leaveManeuver
    quiet).fcu.levelToSend = p.fcu.levelToSend ∧ (p.leaveManeuver quiet).scr = p.scr ∧ (p.leaveManeuver
    quiet).ltr = p.ltr ∧ (p.leaveManeuver quiet).sq.refillArmed = p.sq.refillArmed ∧ (p.leaveManeuver
    quiet).sq.starvedArmed = p.sq.starvedArmed ∧ (p.leaveManeuver quiet).sq.refillMark = p.sq.refillMark ∧
    (p.leaveManeuver quiet).msh.source = p.msh.source ∧ (p.leaveManeuver quiet).msh.credited =
    p.msh.credited ∧ (p.leaveManeuver quiet).msh.wheels = p.msh.wheels ∧ (p.leaveManeuver
    quiet).msh.odometer = p.msh.odometer ∧ (p.leaveManeuver quiet).msh.odometerCarry = p.msh.odometerCarry
    ∧ (p.leaveManeuver quiet).msh.progress = p.msh.progress ∧ (p.leaveManeuver quiet).msh.progressCarry =
    p.msh.progressCarry ∧ (p.leaveManeuver quiet).msh.periodTimer = p.msh.periodTimer ∧ (p.leaveManeuver
    quiet).msh.kilotick = p.msh.kilotick ∧ (p.leaveManeuver
    quiet).msh.maneuverSpeed = p.msh.maneuverSpeed ∧ (p.leaveManeuver quiet).dbm.bus = p.dbm.bus ∧
    (p.leaveManeuver
    quiet).dbm.number = p.dbm.number ∧ (p.leaveManeuver quiet).dbm.resetStops = p.dbm.resetStops ∧
    (p.leaveManeuver quiet).dbm.responseLimit = p.dbm.responseLimit ∧ (p.leaveManeuver
    quiet).dbm.holdLimit = p.dbm.holdLimit ∧ (p.leaveManeuver quiet).sin = p.sin ∧ (p.leaveManeuver
    quiet).hre.queue = p.hre.queue ∧ (p.leaveManeuver quiet).hre.walk = p.hre.walk ∧ (p.leaveManeuver
    quiet).rtu.applying = p.rtu.applying ∧ (p.leaveManeuver quiet).rtu.copies = p.rtu.copies ∧
    (p.leaveManeuver quiet).tst.poisoned = p.tst.poisoned ∧ (p.leaveManeuver quiet).tst.mode = p.tst.mode
    ∧ (p.leaveManeuver quiet).tst.pattern = p.tst.pattern ∧ (p.leaveManeuver quiet).tst.capture =
    p.tst.capture ∧ (p.leaveManeuver quiet).tst.log = p.tst.log ∧ (p.leaveManeuver quiet).tst.scrubPointer
    = p.tst.scrubPointer ∧ (p.leaveManeuver quiet).tst.scrubTimer = p.tst.scrubTimer ∧ (p.leaveManeuver
    quiet).tst.scrubPeriod = p.tst.scrubPeriod ∧ (p.leaveManeuver quiet).plp.hunt = p.plp.hunt ∧
    (p.leaveManeuver quiet).plp.rx = p.plp.rx ∧ (p.leaveManeuver quiet).plp.op = p.plp.op ∧
    (p.leaveManeuver quiet).plp.restarting = p.plp.restarting ∧ (p.leaveManeuver quiet).nco.urgentLevel =
    p.nco.urgentLevel ∧ (p.leaveManeuver quiet).agenda.period = p.agenda.period ∧ (p.leaveManeuver
    quiet).agenda.walk = p.agenda.walk ∧ (p.leaveManeuver quiet).agenda.store = p.agenda.store ∧
    (p.leaveManeuver quiet).agenda.port = p.agenda.port ∧ (p.leaveManeuver quiet).agenda.held =
    p.agenda.held ∧ (p.leaveManeuver quiet).agenda.frames = p.agenda.frames ∧ (p.leaveManeuver
    quiet).clock = p.clock ∧ (p.leaveManeuver quiet).free = p.free := by
  unfold Part.leaveManeuver
  (try dsimp only)
  (repeat' split) <;> simp

@[simp] theorem Part.installResponse_keeps (r : Response) (p : Part) :
    (p.installResponse r).fcu.mode = p.fcu.mode ∧ (p.installResponse r).fcu.resume = p.fcu.resume ∧
    (p.installResponse r).fcu.stopCause = p.fcu.stopCause ∧ (p.installResponse r).fcu.blade = p.fcu.blade
    ∧ (p.installResponse r).fcu.armRefused = p.fcu.armRefused ∧ (p.installResponse r).fcu.permission =
    p.fcu.permission ∧ (p.installResponse r).fcu.keepSilent = p.fcu.keepSilent ∧ (p.installResponse
    r).fcu.keepTimer = p.fcu.keepTimer ∧ (p.installResponse r).fcu.keepLimit = p.fcu.keepLimit ∧
    (p.installResponse r).fcu.silentAction = p.fcu.silentAction ∧ (p.installResponse r).fcu.zoneBladeMax =
    p.fcu.zoneBladeMax ∧ (p.installResponse r).fcu.levelToSend = p.fcu.levelToSend ∧ (p.installResponse
    r).scr = p.scr ∧ (p.installResponse r).ltr = p.ltr ∧ (p.installResponse r).sq = p.sq ∧
    (p.installResponse r).msh = p.msh ∧ (p.installResponse r).dbm = p.dbm ∧ (p.installResponse r).sin =
    p.sin ∧ (p.installResponse r).hre.queue = p.hre.queue ∧ (p.installResponse r).hre.walk = p.hre.walk ∧
    (p.installResponse r).hre.pending = p.hre.pending ∧ (p.installResponse r).rtu = p.rtu ∧
    (p.installResponse r).tst = p.tst ∧ (p.installResponse r).plp.hunt = p.plp.hunt ∧ (p.installResponse
    r).plp.rx = p.plp.rx ∧ (p.installResponse r).plp.op = p.plp.op ∧ (p.installResponse r).plp.restarting
    = p.plp.restarting ∧ (p.installResponse r).nco.urgentLevel = p.nco.urgentLevel ∧ (p.installResponse
    r).agenda.deferral = p.agenda.deferral ∧ (p.installResponse r).agenda.removed = p.agenda.removed ∧
    (p.installResponse r).agenda.starved = p.agenda.starved ∧ (p.installResponse r).agenda.returning =
    p.agenda.returning ∧ (p.installResponse r).agenda.period = p.agenda.period ∧ (p.installResponse
    r).agenda.walk = p.agenda.walk ∧ (p.installResponse r).agenda.bus = p.agenda.bus ∧ (p.installResponse
    r).agenda.store = p.agenda.store ∧ (p.installResponse r).agenda.port = p.agenda.port ∧
    (p.installResponse r).agenda.held = p.agenda.held ∧ (p.installResponse r).agenda.frames =
    p.agenda.frames ∧ (p.installResponse r).clock = p.clock ∧ (p.installResponse r).free = p.free := by
  unfold Part.installResponse
  (try dsimp only)
  (repeat' split) <;> simp

@[simp] theorem Part.applyResponse_keeps (r : Response) (p : Part) :
    (p.applyResponse r).fcu.armRefused = p.fcu.armRefused ∧ (p.applyResponse r).fcu.keepSilent =
    p.fcu.keepSilent ∧ (p.applyResponse r).fcu.keepTimer = p.fcu.keepTimer ∧ (p.applyResponse
    r).fcu.keepLimit = p.fcu.keepLimit ∧ (p.applyResponse r).fcu.silentAction = p.fcu.silentAction ∧
    (p.applyResponse r).fcu.zoneBladeMax = p.fcu.zoneBladeMax ∧ (p.applyResponse r).fcu.levelToSend =
    p.fcu.levelToSend ∧ (p.applyResponse r).scr = p.scr ∧ (p.applyResponse r).ltr = p.ltr ∧
    (p.applyResponse r).sq.refillArmed = p.sq.refillArmed ∧ (p.applyResponse r).sq.starvedArmed =
    p.sq.starvedArmed ∧ (p.applyResponse r).sq.refillMark = p.sq.refillMark ∧ (p.applyResponse
    r).msh.source = p.msh.source ∧ (p.applyResponse r).msh.credited = p.msh.credited ∧ (p.applyResponse
    r).msh.wheels = p.msh.wheels ∧ (p.applyResponse r).msh.odometer = p.msh.odometer ∧ (p.applyResponse
    r).msh.odometerCarry = p.msh.odometerCarry ∧ (p.applyResponse r).msh.progress = p.msh.progress ∧
    (p.applyResponse r).msh.progressCarry = p.msh.progressCarry ∧ (p.applyResponse r).msh.periodTimer =
    p.msh.periodTimer ∧ (p.applyResponse r).msh.kilotick = p.msh.kilotick ∧ (p.applyResponse
    r).msh.maneuverSpeed = p.msh.maneuverSpeed ∧ (p.applyResponse r).dbm.bus =
    p.dbm.bus ∧ (p.applyResponse r).dbm.number = p.dbm.number ∧ (p.applyResponse r).dbm.resetStops =
    p.dbm.resetStops ∧ (p.applyResponse r).dbm.responseLimit = p.dbm.responseLimit ∧ (p.applyResponse
    r).dbm.holdLimit = p.dbm.holdLimit ∧ (p.applyResponse r).sin = p.sin ∧ (p.applyResponse r).hre.queue =
    p.hre.queue ∧ (p.applyResponse r).hre.walk = p.hre.walk ∧ (p.applyResponse r).rtu.applying =
    p.rtu.applying ∧ (p.applyResponse r).rtu.params = p.rtu.params ∧ (p.applyResponse r).rtu.distance =
    p.rtu.distance ∧ (p.applyResponse r).rtu.dockKey = p.rtu.dockKey ∧ (p.applyResponse r).rtu.copies =
    p.rtu.copies ∧ (p.applyResponse r).tst.poisoned = p.tst.poisoned ∧ (p.applyResponse r).tst.mode =
    p.tst.mode ∧ (p.applyResponse r).tst.pattern = p.tst.pattern ∧ (p.applyResponse r).tst.capture =
    p.tst.capture ∧ (p.applyResponse r).tst.log = p.tst.log ∧ (p.applyResponse r).tst.scrubPointer =
    p.tst.scrubPointer ∧ (p.applyResponse r).tst.scrubTimer = p.tst.scrubTimer ∧ (p.applyResponse
    r).tst.scrubPeriod = p.tst.scrubPeriod ∧ (p.applyResponse r).plp.hunt = p.plp.hunt ∧ (p.applyResponse
    r).plp.rx = p.plp.rx ∧ (p.applyResponse r).plp.op = p.plp.op ∧ (p.applyResponse r).plp.restarting =
    p.plp.restarting ∧ (p.applyResponse r).nco.urgentLevel = p.nco.urgentLevel ∧ (p.applyResponse
    r).agenda.period = p.agenda.period ∧ (p.applyResponse r).agenda.walk = p.agenda.walk ∧
    (p.applyResponse r).agenda.store = p.agenda.store ∧ (p.applyResponse r).agenda.port = p.agenda.port ∧
    (p.applyResponse r).agenda.held = p.agenda.held ∧ (p.applyResponse r).agenda.frames = p.agenda.frames
    ∧ (p.applyResponse r).clock = p.clock ∧ (p.applyResponse r).serial = p.serial ∧ (p.applyResponse
    r).free = p.free := by
  unfold Part.applyResponse
  (try dsimp only)
  (repeat' split) <;> simp

@[simp] theorem Part.activateBasic_keeps (r : Response) (p : Part) :
    (p.activateBasic r).fcu.armRefused = p.fcu.armRefused ∧ (p.activateBasic r).fcu.keepSilent =
    p.fcu.keepSilent ∧ (p.activateBasic r).fcu.keepTimer = p.fcu.keepTimer ∧ (p.activateBasic
    r).fcu.keepLimit = p.fcu.keepLimit ∧ (p.activateBasic r).fcu.silentAction = p.fcu.silentAction ∧
    (p.activateBasic r).fcu.zoneBladeMax = p.fcu.zoneBladeMax ∧ (p.activateBasic r).fcu.levelToSend =
    p.fcu.levelToSend ∧ (p.activateBasic r).scr = p.scr ∧ (p.activateBasic r).ltr = p.ltr ∧
    (p.activateBasic r).sq.refillArmed = p.sq.refillArmed ∧ (p.activateBasic r).sq.starvedArmed =
    p.sq.starvedArmed ∧ (p.activateBasic r).sq.refillMark = p.sq.refillMark ∧ (p.activateBasic
    r).msh.source = p.msh.source ∧ (p.activateBasic r).msh.credited = p.msh.credited ∧ (p.activateBasic
    r).msh.wheels = p.msh.wheels ∧ (p.activateBasic r).msh.odometer = p.msh.odometer ∧ (p.activateBasic
    r).msh.odometerCarry = p.msh.odometerCarry ∧ (p.activateBasic r).msh.progress = p.msh.progress ∧
    (p.activateBasic r).msh.progressCarry = p.msh.progressCarry ∧ (p.activateBasic r).msh.periodTimer =
    p.msh.periodTimer ∧ (p.activateBasic r).msh.kilotick = p.msh.kilotick ∧ (p.activateBasic
    r).msh.maneuverSpeed = p.msh.maneuverSpeed ∧ (p.activateBasic r).dbm.bus =
    p.dbm.bus ∧ (p.activateBasic r).dbm.number = p.dbm.number ∧ (p.activateBasic r).dbm.resetStops =
    p.dbm.resetStops ∧ (p.activateBasic r).dbm.responseLimit = p.dbm.responseLimit ∧ (p.activateBasic
    r).dbm.holdLimit = p.dbm.holdLimit ∧ (p.activateBasic r).sin = p.sin ∧ (p.activateBasic r).hre.queue =
    p.hre.queue ∧ (p.activateBasic r).hre.walk = p.hre.walk ∧ (p.activateBasic r).rtu.applying =
    p.rtu.applying ∧ (p.activateBasic r).rtu.params = p.rtu.params ∧ (p.activateBasic r).rtu.distance =
    p.rtu.distance ∧ (p.activateBasic r).rtu.dockKey = p.rtu.dockKey ∧ (p.activateBasic r).rtu.copies =
    p.rtu.copies ∧ (p.activateBasic r).tst.poisoned = p.tst.poisoned ∧ (p.activateBasic r).tst.mode =
    p.tst.mode ∧ (p.activateBasic r).tst.pattern = p.tst.pattern ∧ (p.activateBasic r).tst.capture =
    p.tst.capture ∧ (p.activateBasic r).tst.log = p.tst.log ∧ (p.activateBasic r).tst.scrubPointer =
    p.tst.scrubPointer ∧ (p.activateBasic r).tst.scrubTimer = p.tst.scrubTimer ∧ (p.activateBasic
    r).tst.scrubPeriod = p.tst.scrubPeriod ∧ (p.activateBasic r).plp.hunt = p.plp.hunt ∧ (p.activateBasic
    r).plp.rx = p.plp.rx ∧ (p.activateBasic r).plp.op = p.plp.op ∧ (p.activateBasic r).plp.restarting =
    p.plp.restarting ∧ (p.activateBasic r).nco.urgentLevel = p.nco.urgentLevel ∧ (p.activateBasic
    r).agenda.period = p.agenda.period ∧ (p.activateBasic r).agenda.walk = p.agenda.walk ∧
    (p.activateBasic r).agenda.store = p.agenda.store ∧ (p.activateBasic r).agenda.port = p.agenda.port ∧
    (p.activateBasic r).agenda.held = p.agenda.held ∧ (p.activateBasic r).agenda.frames = p.agenda.frames
    ∧ (p.activateBasic r).clock = p.clock ∧ (p.activateBasic r).free = p.free := by
  unfold Part.activateBasic
  (try dsimp only)
  (repeat' split) <;> simp

@[simp] theorem Part.takePending_keeps (p : Part) :
    p.takePending.fcu.armRefused = p.fcu.armRefused ∧ p.takePending.fcu.keepSilent = p.fcu.keepSilent ∧
    p.takePending.fcu.keepTimer = p.fcu.keepTimer ∧ p.takePending.fcu.keepLimit = p.fcu.keepLimit ∧
    p.takePending.fcu.silentAction = p.fcu.silentAction ∧ p.takePending.fcu.zoneBladeMax =
    p.fcu.zoneBladeMax ∧ p.takePending.fcu.levelToSend = p.fcu.levelToSend ∧ p.takePending.scr = p.scr ∧
    p.takePending.ltr = p.ltr ∧ p.takePending.sq.refillArmed = p.sq.refillArmed ∧
    p.takePending.sq.starvedArmed = p.sq.starvedArmed ∧ p.takePending.sq.refillMark = p.sq.refillMark ∧
    p.takePending.msh.source = p.msh.source ∧ p.takePending.msh.credited = p.msh.credited ∧
    p.takePending.msh.wheels = p.msh.wheels ∧ p.takePending.msh.odometer = p.msh.odometer ∧
    p.takePending.msh.odometerCarry = p.msh.odometerCarry ∧ p.takePending.msh.progress = p.msh.progress ∧
    p.takePending.msh.progressCarry = p.msh.progressCarry ∧ p.takePending.msh.periodTimer =
    p.msh.periodTimer ∧ p.takePending.msh.kilotick = p.msh.kilotick ∧ p.takePending.msh.maneuverSpeed =
    p.msh.maneuverSpeed ∧ p.takePending.dbm.bus = p.dbm.bus ∧
    p.takePending.dbm.number = p.dbm.number ∧ p.takePending.dbm.resetStops = p.dbm.resetStops ∧
    p.takePending.dbm.responseLimit = p.dbm.responseLimit ∧ p.takePending.dbm.holdLimit = p.dbm.holdLimit
    ∧ p.takePending.sin = p.sin ∧ p.takePending.hre.queue = p.hre.queue ∧ p.takePending.hre.walk =
    p.hre.walk ∧ p.takePending.rtu.applying = p.rtu.applying ∧ p.takePending.rtu.params = p.rtu.params ∧
    p.takePending.rtu.distance = p.rtu.distance ∧ p.takePending.rtu.dockKey = p.rtu.dockKey ∧
    p.takePending.rtu.copies = p.rtu.copies ∧ p.takePending.tst.poisoned = p.tst.poisoned ∧
    p.takePending.tst.mode = p.tst.mode ∧ p.takePending.tst.pattern = p.tst.pattern ∧
    p.takePending.tst.capture = p.tst.capture ∧ p.takePending.tst.log = p.tst.log ∧
    p.takePending.tst.scrubPointer = p.tst.scrubPointer ∧ p.takePending.tst.scrubTimer = p.tst.scrubTimer
    ∧ p.takePending.tst.scrubPeriod = p.tst.scrubPeriod ∧ p.takePending.plp.hunt = p.plp.hunt ∧
    p.takePending.plp.rx = p.plp.rx ∧ p.takePending.plp.op = p.plp.op ∧ p.takePending.plp.restarting =
    p.plp.restarting ∧ p.takePending.nco.urgentLevel = p.nco.urgentLevel ∧ p.takePending.agenda.period =
    p.agenda.period ∧ p.takePending.agenda.walk = p.agenda.walk ∧ p.takePending.agenda.store =
    p.agenda.store ∧ p.takePending.agenda.port = p.agenda.port ∧ p.takePending.agenda.held = p.agenda.held
    ∧ p.takePending.agenda.frames = p.agenda.frames ∧ p.takePending.clock = p.clock ∧ p.takePending.free =
    p.free := by
  unfold Part.takePending
  (try dsimp only)
  (repeat' split) <;> simp

@[simp] theorem Part.activate_keeps (r : Response) (p : Part) :
    (p.activate r).fcu.armRefused = p.fcu.armRefused ∧ (p.activate r).fcu.keepSilent = p.fcu.keepSilent ∧
    (p.activate r).fcu.keepTimer = p.fcu.keepTimer ∧ (p.activate r).fcu.keepLimit = p.fcu.keepLimit ∧
    (p.activate r).fcu.silentAction = p.fcu.silentAction ∧ (p.activate r).fcu.zoneBladeMax =
    p.fcu.zoneBladeMax ∧ (p.activate r).fcu.levelToSend = p.fcu.levelToSend ∧ (p.activate r).scr = p.scr ∧
    (p.activate r).ltr = p.ltr ∧ (p.activate r).sq.refillArmed = p.sq.refillArmed ∧ (p.activate
    r).sq.starvedArmed = p.sq.starvedArmed ∧ (p.activate r).sq.refillMark = p.sq.refillMark ∧ (p.activate
    r).msh.source = p.msh.source ∧ (p.activate r).msh.credited = p.msh.credited ∧ (p.activate
    r).msh.wheels = p.msh.wheels ∧ (p.activate r).msh.odometer = p.msh.odometer ∧ (p.activate
    r).msh.odometerCarry = p.msh.odometerCarry ∧ (p.activate r).msh.progress = p.msh.progress ∧
    (p.activate r).msh.progressCarry = p.msh.progressCarry ∧ (p.activate r).msh.periodTimer =
    p.msh.periodTimer ∧ (p.activate r).msh.kilotick = p.msh.kilotick ∧ (p.activate r).msh.maneuverSpeed =
    p.msh.maneuverSpeed ∧ (p.activate r).dbm.bus = p.dbm.bus
    ∧ (p.activate r).dbm.number = p.dbm.number ∧ (p.activate r).dbm.resetStops = p.dbm.resetStops ∧
    (p.activate r).dbm.responseLimit = p.dbm.responseLimit ∧ (p.activate r).dbm.holdLimit =
    p.dbm.holdLimit ∧ (p.activate r).sin = p.sin ∧ (p.activate r).hre.queue = p.hre.queue ∧ (p.activate
    r).hre.walk = p.hre.walk ∧ (p.activate r).rtu.applying = p.rtu.applying ∧ (p.activate r).rtu.params =
    p.rtu.params ∧ (p.activate r).rtu.distance = p.rtu.distance ∧ (p.activate r).rtu.dockKey =
    p.rtu.dockKey ∧ (p.activate r).rtu.copies = p.rtu.copies ∧ (p.activate r).tst.poisoned =
    p.tst.poisoned ∧ (p.activate r).tst.mode = p.tst.mode ∧ (p.activate r).tst.pattern = p.tst.pattern ∧
    (p.activate r).tst.capture = p.tst.capture ∧ (p.activate r).tst.log = p.tst.log ∧ (p.activate
    r).tst.scrubPointer = p.tst.scrubPointer ∧ (p.activate r).tst.scrubTimer = p.tst.scrubTimer ∧
    (p.activate r).tst.scrubPeriod = p.tst.scrubPeriod ∧ (p.activate r).plp.hunt = p.plp.hunt ∧
    (p.activate r).plp.rx = p.plp.rx ∧ (p.activate r).plp.op = p.plp.op ∧ (p.activate r).plp.restarting =
    p.plp.restarting ∧ (p.activate r).nco.urgentLevel = p.nco.urgentLevel ∧ (p.activate r).agenda.period =
    p.agenda.period ∧ (p.activate r).agenda.walk = p.agenda.walk ∧ (p.activate r).agenda.store =
    p.agenda.store ∧ (p.activate r).agenda.port = p.agenda.port ∧ (p.activate r).agenda.held =
    p.agenda.held ∧ (p.activate r).agenda.frames = p.agenda.frames ∧ (p.activate r).clock = p.clock ∧
    (p.activate r).free = p.free := by
  unfold Part.activate
  (try dsimp only)
  (repeat' split) <;> simp

@[simp] theorem Part.endEffects_keeps (a : Action) (stays quiet : Bool) (p : Part) :
    (p.endEffects a stays quiet).fcu.keepSilent = p.fcu.keepSilent ∧ (p.endEffects a stays
    quiet).fcu.keepTimer = p.fcu.keepTimer ∧ (p.endEffects a stays quiet).fcu.keepLimit = p.fcu.keepLimit
    ∧ (p.endEffects a stays quiet).fcu.silentAction = p.fcu.silentAction ∧ (p.endEffects a stays
    quiet).fcu.zoneBladeMax = p.fcu.zoneBladeMax ∧ (p.endEffects a stays quiet).fcu.levelToSend =
    p.fcu.levelToSend ∧ (p.endEffects a stays quiet).scr = p.scr ∧ (p.endEffects a stays quiet).ltr =
    p.ltr ∧ (p.endEffects a stays quiet).sq.refillArmed = p.sq.refillArmed ∧ (p.endEffects a stays
    quiet).sq.starvedArmed = p.sq.starvedArmed ∧ (p.endEffects a stays quiet).sq.refillMark =
    p.sq.refillMark ∧ (p.endEffects a stays quiet).msh.source = p.msh.source ∧ (p.endEffects a stays
    quiet).msh.credited = p.msh.credited ∧ (p.endEffects a stays quiet).msh.wheels = p.msh.wheels ∧
    (p.endEffects a stays quiet).msh.odometer = p.msh.odometer ∧ (p.endEffects a stays
    quiet).msh.odometerCarry = p.msh.odometerCarry ∧ (p.endEffects a stays quiet).msh.progressCarry =
    p.msh.progressCarry ∧ (p.endEffects a stays quiet).msh.periodTimer = p.msh.periodTimer ∧ (p.endEffects
    a stays quiet).msh.kilotick = p.msh.kilotick ∧ (p.endEffects
    a stays quiet).msh.maneuverSpeed = p.msh.maneuverSpeed ∧ (p.endEffects a stays quiet).dbm.bus =
    p.dbm.bus ∧
    (p.endEffects a stays quiet).dbm.number = p.dbm.number ∧ (p.endEffects a stays quiet).dbm.resetStops =
    p.dbm.resetStops ∧ (p.endEffects a stays quiet).dbm.responseLimit = p.dbm.responseLimit ∧
    (p.endEffects a stays quiet).dbm.holdLimit = p.dbm.holdLimit ∧ (p.endEffects a stays quiet).sin =
    p.sin ∧ (p.endEffects a stays quiet).hre.queue = p.hre.queue ∧ (p.endEffects a stays quiet).hre.walk =
    p.hre.walk ∧ (p.endEffects a stays quiet).rtu.applying = p.rtu.applying ∧ (p.endEffects a stays
    quiet).rtu.copies = p.rtu.copies ∧ (p.endEffects a stays quiet).tst.poisoned = p.tst.poisoned ∧
    (p.endEffects a stays quiet).tst.mode = p.tst.mode ∧ (p.endEffects a stays quiet).tst.pattern =
    p.tst.pattern ∧ (p.endEffects a stays quiet).tst.capture = p.tst.capture ∧ (p.endEffects a stays
    quiet).tst.log = p.tst.log ∧ (p.endEffects a stays quiet).tst.scrubPointer = p.tst.scrubPointer ∧
    (p.endEffects a stays quiet).tst.scrubTimer = p.tst.scrubTimer ∧ (p.endEffects a stays
    quiet).tst.scrubPeriod = p.tst.scrubPeriod ∧ (p.endEffects a stays quiet).plp.hunt = p.plp.hunt ∧
    (p.endEffects a stays quiet).plp.rx = p.plp.rx ∧ (p.endEffects a stays quiet).plp.op = p.plp.op ∧
    (p.endEffects a stays quiet).plp.restarting = p.plp.restarting ∧ (p.endEffects a stays
    quiet).nco.urgentLevel = p.nco.urgentLevel ∧ (p.endEffects a stays quiet).agenda.period =
    p.agenda.period ∧ (p.endEffects a stays quiet).agenda.walk = p.agenda.walk ∧ (p.endEffects a stays
    quiet).agenda.store = p.agenda.store ∧ (p.endEffects a stays quiet).agenda.port = p.agenda.port ∧
    (p.endEffects a stays quiet).agenda.held = p.agenda.held ∧ (p.endEffects a stays quiet).agenda.frames
    = p.agenda.frames ∧ (p.endEffects a stays quiet).clock = p.clock ∧ (p.endEffects a stays quiet).free =
    p.free := by
  unfold Part.endEffects
  (try dsimp only)
  (repeat' split) <;> simp

@[simp] theorem Part.preempt_keeps (a r : Response) (p : Part) :
    (p.preempt a r).fcu.keepSilent = p.fcu.keepSilent ∧ (p.preempt a r).fcu.keepTimer = p.fcu.keepTimer ∧
    (p.preempt a r).fcu.keepLimit = p.fcu.keepLimit ∧ (p.preempt a r).fcu.silentAction =
    p.fcu.silentAction ∧ (p.preempt a r).fcu.zoneBladeMax = p.fcu.zoneBladeMax ∧ (p.preempt a
    r).fcu.levelToSend = p.fcu.levelToSend ∧ (p.preempt a r).scr = p.scr ∧ (p.preempt a r).ltr = p.ltr ∧
    (p.preempt a r).sq.refillArmed = p.sq.refillArmed ∧ (p.preempt a r).sq.starvedArmed =
    p.sq.starvedArmed ∧ (p.preempt a r).sq.refillMark = p.sq.refillMark ∧ (p.preempt a r).msh.source =
    p.msh.source ∧ (p.preempt a r).msh.credited = p.msh.credited ∧ (p.preempt a r).msh.wheels =
    p.msh.wheels ∧ (p.preempt a r).msh.odometer = p.msh.odometer ∧ (p.preempt a r).msh.odometerCarry =
    p.msh.odometerCarry ∧ (p.preempt a r).msh.progressCarry = p.msh.progressCarry ∧ (p.preempt a
    r).msh.periodTimer = p.msh.periodTimer ∧ (p.preempt a r).msh.kilotick = p.msh.kilotick ∧ (p.preempt a
    r).msh.maneuverSpeed = p.msh.maneuverSpeed ∧ (p.preempt a
    r).dbm.bus = p.dbm.bus ∧ (p.preempt a r).dbm.number = p.dbm.number ∧ (p.preempt a r).dbm.resetStops =
    p.dbm.resetStops ∧ (p.preempt a r).dbm.responseLimit = p.dbm.responseLimit ∧ (p.preempt a
    r).dbm.holdLimit = p.dbm.holdLimit ∧ (p.preempt a r).sin = p.sin ∧ (p.preempt a r).hre.queue =
    p.hre.queue ∧ (p.preempt a r).hre.walk = p.hre.walk ∧ (p.preempt a r).rtu.applying = p.rtu.applying ∧
    (p.preempt a r).rtu.copies = p.rtu.copies ∧ (p.preempt a r).tst.poisoned = p.tst.poisoned ∧ (p.preempt
    a r).tst.mode = p.tst.mode ∧ (p.preempt a r).tst.pattern = p.tst.pattern ∧ (p.preempt a r).tst.capture
    = p.tst.capture ∧ (p.preempt a r).tst.log = p.tst.log ∧ (p.preempt a r).tst.scrubPointer =
    p.tst.scrubPointer ∧ (p.preempt a r).tst.scrubTimer = p.tst.scrubTimer ∧ (p.preempt a
    r).tst.scrubPeriod = p.tst.scrubPeriod ∧ (p.preempt a r).plp.hunt = p.plp.hunt ∧ (p.preempt a
    r).plp.rx = p.plp.rx ∧ (p.preempt a r).plp.op = p.plp.op ∧ (p.preempt a r).plp.restarting =
    p.plp.restarting ∧ (p.preempt a r).nco.urgentLevel = p.nco.urgentLevel ∧ (p.preempt a r).agenda.period
    = p.agenda.period ∧ (p.preempt a r).agenda.walk = p.agenda.walk ∧ (p.preempt a r).agenda.store =
    p.agenda.store ∧ (p.preempt a r).agenda.port = p.agenda.port ∧ (p.preempt a r).agenda.held =
    p.agenda.held ∧ (p.preempt a r).agenda.frames = p.agenda.frames ∧ (p.preempt a r).clock = p.clock ∧
    (p.preempt a r).free = p.free := by
  unfold Part.preempt
  (try dsimp only)
  (repeat' split) <;> simp

@[simp] theorem Part.completeResponse_keeps (p : Part) :
    p.completeResponse.fcu.keepSilent = p.fcu.keepSilent ∧ p.completeResponse.fcu.keepTimer =
    p.fcu.keepTimer ∧ p.completeResponse.fcu.keepLimit = p.fcu.keepLimit ∧
    p.completeResponse.fcu.silentAction = p.fcu.silentAction ∧ p.completeResponse.fcu.zoneBladeMax =
    p.fcu.zoneBladeMax ∧ p.completeResponse.fcu.levelToSend = p.fcu.levelToSend ∧ p.completeResponse.scr =
    p.scr ∧ p.completeResponse.ltr = p.ltr ∧ p.completeResponse.sq.refillArmed = p.sq.refillArmed ∧
    p.completeResponse.sq.starvedArmed = p.sq.starvedArmed ∧ p.completeResponse.sq.refillMark =
    p.sq.refillMark ∧ p.completeResponse.msh.source = p.msh.source ∧ p.completeResponse.msh.credited =
    p.msh.credited ∧ p.completeResponse.msh.wheels = p.msh.wheels ∧ p.completeResponse.msh.odometer =
    p.msh.odometer ∧ p.completeResponse.msh.odometerCarry = p.msh.odometerCarry ∧
    p.completeResponse.msh.progressCarry = p.msh.progressCarry ∧ p.completeResponse.msh.periodTimer =
    p.msh.periodTimer ∧ p.completeResponse.msh.kilotick = p.msh.kilotick ∧
    p.completeResponse.msh.maneuverSpeed = p.msh.maneuverSpeed ∧ p.completeResponse.dbm.bus =
    p.dbm.bus ∧ p.completeResponse.dbm.number = p.dbm.number ∧ p.completeResponse.dbm.resetStops =
    p.dbm.resetStops ∧ p.completeResponse.dbm.responseLimit = p.dbm.responseLimit ∧
    p.completeResponse.dbm.holdLimit = p.dbm.holdLimit ∧ p.completeResponse.sin = p.sin ∧
    p.completeResponse.hre.queue = p.hre.queue ∧ p.completeResponse.hre.walk = p.hre.walk ∧
    p.completeResponse.rtu.applying = p.rtu.applying ∧ p.completeResponse.rtu.copies = p.rtu.copies ∧
    p.completeResponse.tst.poisoned = p.tst.poisoned ∧ p.completeResponse.tst.mode = p.tst.mode ∧
    p.completeResponse.tst.pattern = p.tst.pattern ∧ p.completeResponse.tst.capture = p.tst.capture ∧
    p.completeResponse.tst.log = p.tst.log ∧ p.completeResponse.tst.scrubPointer = p.tst.scrubPointer ∧
    p.completeResponse.tst.scrubTimer = p.tst.scrubTimer ∧ p.completeResponse.tst.scrubPeriod =
    p.tst.scrubPeriod ∧ p.completeResponse.plp.hunt = p.plp.hunt ∧ p.completeResponse.plp.rx = p.plp.rx ∧
    p.completeResponse.plp.op = p.plp.op ∧ p.completeResponse.plp.restarting = p.plp.restarting ∧
    p.completeResponse.nco.urgentLevel = p.nco.urgentLevel ∧ p.completeResponse.agenda.period =
    p.agenda.period ∧ p.completeResponse.agenda.walk = p.agenda.walk ∧ p.completeResponse.agenda.store =
    p.agenda.store ∧ p.completeResponse.agenda.port = p.agenda.port ∧ p.completeResponse.agenda.held =
    p.agenda.held ∧ p.completeResponse.agenda.frames = p.agenda.frames ∧ p.completeResponse.clock =
    p.clock ∧ p.completeResponse.free = p.free := by
  unfold Part.completeResponse
  (try dsimp only)
  (repeat' split) <;> simp

@[simp] theorem Part.placePending_keeps (r : Response) (p : Part) :
    (p.placePending r).fcu = p.fcu ∧ (p.placePending r).scr = p.scr ∧ (p.placePending r).ltr = p.ltr ∧
    (p.placePending r).sq = p.sq ∧ (p.placePending r).msh = p.msh ∧ (p.placePending r).dbm = p.dbm ∧
    (p.placePending r).sin = p.sin ∧ (p.placePending r).hre.queue = p.hre.queue ∧ (p.placePending
    r).hre.walk = p.hre.walk ∧ (p.placePending r).hre.active = p.hre.active ∧ (p.placePending r).rtu =
    p.rtu ∧ (p.placePending r).tst = p.tst ∧ (p.placePending r).plp.hunt = p.plp.hunt ∧ (p.placePending
    r).plp.rx = p.plp.rx ∧ (p.placePending r).plp.op = p.plp.op ∧ (p.placePending r).plp.restarting =
    p.plp.restarting ∧ (p.placePending r).nco.urgentLevel = p.nco.urgentLevel ∧ (p.placePending r).agenda
    = p.agenda ∧ (p.placePending r).clock = p.clock ∧ (p.placePending r).serial = p.serial ∧
    (p.placePending r).free = p.free := by
  unfold Part.placePending
  (try dsimp only)
  (repeat' split) <;> simp

@[simp] theorem Part.refresh_keeps (a : Active) (r : Response) (p : Part) :
    (p.refresh a r).fcu = p.fcu ∧ (p.refresh a r).scr = p.scr ∧ (p.refresh a r).ltr = p.ltr ∧ (p.refresh a
    r).sq = p.sq ∧ (p.refresh a r).msh.source = p.msh.source ∧ (p.refresh a r).msh.credited =
    p.msh.credited ∧ (p.refresh a r).msh.wheels = p.msh.wheels ∧ (p.refresh a r).msh.odometer =
    p.msh.odometer ∧ (p.refresh a r).msh.odometerCarry = p.msh.odometerCarry ∧ (p.refresh a
    r).msh.progress = p.msh.progress ∧ (p.refresh a r).msh.progressCarry = p.msh.progressCarry ∧
    (p.refresh a r).msh.periodTimer = p.msh.periodTimer ∧ (p.refresh a r).msh.kilotick = p.msh.kilotick ∧
    (p.refresh a r).msh.maneuverSpeed = p.msh.maneuverSpeed ∧
    (p.refresh a r).dbm.bus = p.dbm.bus ∧ (p.refresh a r).dbm.interlock = p.dbm.interlock ∧ (p.refresh a
    r).dbm.number = p.dbm.number ∧ (p.refresh a r).dbm.resetStops = p.dbm.resetStops ∧ (p.refresh a
    r).dbm.responseLimit = p.dbm.responseLimit ∧ (p.refresh a r).dbm.holdLimit = p.dbm.holdLimit ∧
    (p.refresh a r).sin = p.sin ∧ (p.refresh a r).hre.queue = p.hre.queue ∧ (p.refresh a r).hre.walk =
    p.hre.walk ∧ (p.refresh a r).hre.pending = p.hre.pending ∧ (p.refresh a r).rtu = p.rtu ∧ (p.refresh a
    r).tst = p.tst ∧ (p.refresh a r).plp.hunt = p.plp.hunt ∧ (p.refresh a r).plp.rx = p.plp.rx ∧
    (p.refresh a r).plp.op = p.plp.op ∧ (p.refresh a r).plp.restarting = p.plp.restarting ∧ (p.refresh a
    r).nco.urgentLevel = p.nco.urgentLevel ∧ (p.refresh a r).agenda.blade = p.agenda.blade ∧ (p.refresh a
    r).agenda.deferral = p.agenda.deferral ∧ (p.refresh a r).agenda.removed = p.agenda.removed ∧
    (p.refresh a r).agenda.starved = p.agenda.starved ∧ (p.refresh a r).agenda.returning =
    p.agenda.returning ∧ (p.refresh a r).agenda.period = p.agenda.period ∧ (p.refresh a r).agenda.walk =
    p.agenda.walk ∧ (p.refresh a r).agenda.store = p.agenda.store ∧ (p.refresh a r).agenda.port =
    p.agenda.port ∧ (p.refresh a r).agenda.held = p.agenda.held ∧ (p.refresh a r).agenda.frames =
    p.agenda.frames ∧ (p.refresh a r).clock = p.clock ∧ (p.refresh a r).serial = p.serial ∧ (p.refresh a
    r).free = p.free := by
  unfold Part.refresh
  (try dsimp only)
  (repeat' split) <;> simp

@[simp] theorem Part.decideResponse_keeps (r : Response) (p : Part) :
    (p.decideResponse r).fcu.keepSilent = p.fcu.keepSilent ∧ (p.decideResponse r).fcu.keepTimer =
    p.fcu.keepTimer ∧ (p.decideResponse r).fcu.keepLimit = p.fcu.keepLimit ∧ (p.decideResponse
    r).fcu.silentAction = p.fcu.silentAction ∧ (p.decideResponse r).fcu.zoneBladeMax = p.fcu.zoneBladeMax
    ∧ (p.decideResponse r).fcu.levelToSend = p.fcu.levelToSend ∧ (p.decideResponse r).scr = p.scr ∧
    (p.decideResponse r).ltr = p.ltr ∧ (p.decideResponse r).sq.refillArmed = p.sq.refillArmed ∧
    (p.decideResponse r).sq.starvedArmed = p.sq.starvedArmed ∧ (p.decideResponse r).sq.refillMark =
    p.sq.refillMark ∧ (p.decideResponse r).msh.source = p.msh.source ∧ (p.decideResponse r).msh.credited =
    p.msh.credited ∧ (p.decideResponse r).msh.wheels = p.msh.wheels ∧ (p.decideResponse r).msh.odometer =
    p.msh.odometer ∧ (p.decideResponse r).msh.odometerCarry = p.msh.odometerCarry ∧ (p.decideResponse
    r).msh.progressCarry = p.msh.progressCarry ∧ (p.decideResponse r).msh.periodTimer = p.msh.periodTimer
    ∧ (p.decideResponse r).msh.kilotick = p.msh.kilotick ∧ (p.decideResponse r).msh.maneuverSpeed =
    p.msh.maneuverSpeed ∧ (p.decideResponse r).dbm.bus = p.dbm.bus ∧
    (p.decideResponse r).dbm.number = p.dbm.number ∧ (p.decideResponse r).dbm.resetStops =
    p.dbm.resetStops ∧ (p.decideResponse r).dbm.responseLimit = p.dbm.responseLimit ∧ (p.decideResponse
    r).dbm.holdLimit = p.dbm.holdLimit ∧ (p.decideResponse r).sin = p.sin ∧ (p.decideResponse r).hre.queue
    = p.hre.queue ∧ (p.decideResponse r).hre.walk = p.hre.walk ∧ (p.decideResponse r).rtu.applying =
    p.rtu.applying ∧ (p.decideResponse r).rtu.copies = p.rtu.copies ∧ (p.decideResponse r).tst.poisoned =
    p.tst.poisoned ∧ (p.decideResponse r).tst.mode = p.tst.mode ∧ (p.decideResponse r).tst.pattern =
    p.tst.pattern ∧ (p.decideResponse r).tst.capture = p.tst.capture ∧ (p.decideResponse r).tst.log =
    p.tst.log ∧ (p.decideResponse r).tst.scrubPointer = p.tst.scrubPointer ∧ (p.decideResponse
    r).tst.scrubTimer = p.tst.scrubTimer ∧ (p.decideResponse r).tst.scrubPeriod = p.tst.scrubPeriod ∧
    (p.decideResponse r).plp.hunt = p.plp.hunt ∧ (p.decideResponse r).plp.rx = p.plp.rx ∧
    (p.decideResponse r).plp.op = p.plp.op ∧ (p.decideResponse r).plp.restarting = p.plp.restarting ∧
    (p.decideResponse r).nco.urgentLevel = p.nco.urgentLevel ∧ (p.decideResponse r).agenda.period =
    p.agenda.period ∧ (p.decideResponse r).agenda.walk = p.agenda.walk ∧ (p.decideResponse r).agenda.store
    = p.agenda.store ∧ (p.decideResponse r).agenda.port = p.agenda.port ∧ (p.decideResponse r).agenda.held
    = p.agenda.held ∧ (p.decideResponse r).agenda.frames = p.agenda.frames ∧ (p.decideResponse r).clock =
    p.clock ∧ (p.decideResponse r).free = p.free := by
  unfold Part.decideResponse
  (try dsimp only)
  (repeat' split) <;> simp

@[simp] theorem Part.deferralLifted_keeps (p : Part) :
    p.deferralLifted.fcu.keepSilent = p.fcu.keepSilent ∧ p.deferralLifted.fcu.keepTimer = p.fcu.keepTimer
    ∧ p.deferralLifted.fcu.keepLimit = p.fcu.keepLimit ∧ p.deferralLifted.fcu.silentAction =
    p.fcu.silentAction ∧ p.deferralLifted.fcu.zoneBladeMax = p.fcu.zoneBladeMax ∧
    p.deferralLifted.fcu.levelToSend = p.fcu.levelToSend ∧ p.deferralLifted.scr = p.scr ∧
    p.deferralLifted.ltr = p.ltr ∧ p.deferralLifted.sq.refillArmed = p.sq.refillArmed ∧
    p.deferralLifted.sq.starvedArmed = p.sq.starvedArmed ∧ p.deferralLifted.sq.refillMark =
    p.sq.refillMark ∧ p.deferralLifted.msh.source = p.msh.source ∧ p.deferralLifted.msh.credited =
    p.msh.credited ∧ p.deferralLifted.msh.wheels = p.msh.wheels ∧ p.deferralLifted.msh.odometer =
    p.msh.odometer ∧ p.deferralLifted.msh.odometerCarry = p.msh.odometerCarry ∧
    p.deferralLifted.msh.progressCarry = p.msh.progressCarry ∧ p.deferralLifted.msh.periodTimer =
    p.msh.periodTimer ∧ p.deferralLifted.msh.kilotick = p.msh.kilotick ∧
    p.deferralLifted.msh.maneuverSpeed = p.msh.maneuverSpeed ∧ p.deferralLifted.dbm.bus =
    p.dbm.bus ∧ p.deferralLifted.dbm.number = p.dbm.number ∧ p.deferralLifted.dbm.resetStops =
    p.dbm.resetStops ∧ p.deferralLifted.dbm.responseLimit = p.dbm.responseLimit ∧
    p.deferralLifted.dbm.holdLimit = p.dbm.holdLimit ∧ p.deferralLifted.sin = p.sin ∧
    p.deferralLifted.hre.queue = p.hre.queue ∧ p.deferralLifted.hre.walk = p.hre.walk ∧
    p.deferralLifted.rtu.applying = p.rtu.applying ∧ p.deferralLifted.rtu.copies = p.rtu.copies ∧
    p.deferralLifted.tst.poisoned = p.tst.poisoned ∧ p.deferralLifted.tst.mode = p.tst.mode ∧
    p.deferralLifted.tst.pattern = p.tst.pattern ∧ p.deferralLifted.tst.capture = p.tst.capture ∧
    p.deferralLifted.tst.log = p.tst.log ∧ p.deferralLifted.tst.scrubPointer = p.tst.scrubPointer ∧
    p.deferralLifted.tst.scrubTimer = p.tst.scrubTimer ∧ p.deferralLifted.tst.scrubPeriod =
    p.tst.scrubPeriod ∧ p.deferralLifted.plp.hunt = p.plp.hunt ∧ p.deferralLifted.plp.rx = p.plp.rx ∧
    p.deferralLifted.plp.op = p.plp.op ∧ p.deferralLifted.plp.restarting = p.plp.restarting ∧
    p.deferralLifted.nco.urgentLevel = p.nco.urgentLevel ∧ p.deferralLifted.agenda.period =
    p.agenda.period ∧ p.deferralLifted.agenda.walk = p.agenda.walk ∧ p.deferralLifted.agenda.store =
    p.agenda.store ∧ p.deferralLifted.agenda.port = p.agenda.port ∧ p.deferralLifted.agenda.held =
    p.agenda.held ∧ p.deferralLifted.agenda.frames = p.agenda.frames ∧ p.deferralLifted.clock = p.clock ∧
    p.deferralLifted.free = p.free := by
  unfold Part.deferralLifted
  (try dsimp only)
  (repeat' split) <;> simp

@[simp] theorem Part.deferralPass_keeps (p : Part) :
    p.deferralPass.fcu.keepSilent = p.fcu.keepSilent ∧ p.deferralPass.fcu.keepTimer = p.fcu.keepTimer ∧
    p.deferralPass.fcu.keepLimit = p.fcu.keepLimit ∧ p.deferralPass.fcu.silentAction = p.fcu.silentAction
    ∧ p.deferralPass.fcu.zoneBladeMax = p.fcu.zoneBladeMax ∧ p.deferralPass.fcu.levelToSend =
    p.fcu.levelToSend ∧ p.deferralPass.scr = p.scr ∧ p.deferralPass.ltr = p.ltr ∧
    p.deferralPass.sq.refillArmed = p.sq.refillArmed ∧ p.deferralPass.sq.starvedArmed = p.sq.starvedArmed
    ∧ p.deferralPass.sq.refillMark = p.sq.refillMark ∧ p.deferralPass.msh.source = p.msh.source ∧
    p.deferralPass.msh.credited = p.msh.credited ∧ p.deferralPass.msh.wheels = p.msh.wheels ∧
    p.deferralPass.msh.odometer = p.msh.odometer ∧ p.deferralPass.msh.odometerCarry = p.msh.odometerCarry
    ∧ p.deferralPass.msh.progressCarry = p.msh.progressCarry ∧ p.deferralPass.msh.periodTimer =
    p.msh.periodTimer ∧ p.deferralPass.msh.kilotick = p.msh.kilotick ∧ p.deferralPass.msh.maneuverSpeed =
    p.msh.maneuverSpeed ∧ p.deferralPass.dbm.bus = p.dbm.bus
    ∧ p.deferralPass.dbm.number = p.dbm.number ∧ p.deferralPass.dbm.resetStops = p.dbm.resetStops ∧
    p.deferralPass.dbm.responseLimit = p.dbm.responseLimit ∧ p.deferralPass.dbm.holdLimit =
    p.dbm.holdLimit ∧ p.deferralPass.sin = p.sin ∧ p.deferralPass.hre.queue = p.hre.queue ∧
    p.deferralPass.hre.walk = p.hre.walk ∧ p.deferralPass.rtu.applying = p.rtu.applying ∧
    p.deferralPass.rtu.copies = p.rtu.copies ∧ p.deferralPass.tst.poisoned = p.tst.poisoned ∧
    p.deferralPass.tst.mode = p.tst.mode ∧ p.deferralPass.tst.pattern = p.tst.pattern ∧
    p.deferralPass.tst.capture = p.tst.capture ∧ p.deferralPass.tst.log = p.tst.log ∧
    p.deferralPass.tst.scrubPointer = p.tst.scrubPointer ∧ p.deferralPass.tst.scrubTimer =
    p.tst.scrubTimer ∧ p.deferralPass.tst.scrubPeriod = p.tst.scrubPeriod ∧ p.deferralPass.plp.hunt =
    p.plp.hunt ∧ p.deferralPass.plp.rx = p.plp.rx ∧ p.deferralPass.plp.op = p.plp.op ∧
    p.deferralPass.plp.restarting = p.plp.restarting ∧ p.deferralPass.nco.urgentLevel = p.nco.urgentLevel
    ∧ p.deferralPass.agenda.period = p.agenda.period ∧ p.deferralPass.agenda.walk = p.agenda.walk ∧
    p.deferralPass.agenda.store = p.agenda.store ∧ p.deferralPass.agenda.port = p.agenda.port ∧
    p.deferralPass.agenda.held = p.agenda.held ∧ p.deferralPass.agenda.frames = p.agenda.frames ∧
    p.deferralPass.clock = p.clock ∧ p.deferralPass.free = p.free := by
  unfold Part.deferralPass
  (try dsimp only)
  (repeat' split) <;> simp

@[simp] theorem Part.homeBySilence_keeps (p : Part) :
    p.homeBySilence.fcu.armRefused = p.fcu.armRefused ∧ p.homeBySilence.fcu.keepSilent = p.fcu.keepSilent
    ∧ p.homeBySilence.fcu.keepTimer = p.fcu.keepTimer ∧ p.homeBySilence.fcu.keepLimit = p.fcu.keepLimit ∧
    p.homeBySilence.fcu.silentAction = p.fcu.silentAction ∧ p.homeBySilence.fcu.zoneBladeMax =
    p.fcu.zoneBladeMax ∧ p.homeBySilence.fcu.levelToSend = p.fcu.levelToSend ∧ p.homeBySilence.scr = p.scr
    ∧ p.homeBySilence.ltr = p.ltr ∧ p.homeBySilence.sq.refillArmed = p.sq.refillArmed ∧
    p.homeBySilence.sq.starvedArmed = p.sq.starvedArmed ∧ p.homeBySilence.sq.refillMark = p.sq.refillMark
    ∧ p.homeBySilence.msh.source = p.msh.source ∧ p.homeBySilence.msh.credited = p.msh.credited ∧
    p.homeBySilence.msh.wheels = p.msh.wheels ∧ p.homeBySilence.msh.odometer = p.msh.odometer ∧
    p.homeBySilence.msh.odometerCarry = p.msh.odometerCarry ∧ p.homeBySilence.msh.progress =
    p.msh.progress ∧ p.homeBySilence.msh.progressCarry = p.msh.progressCarry ∧
    p.homeBySilence.msh.periodTimer = p.msh.periodTimer ∧ p.homeBySilence.msh.kilotick = p.msh.kilotick ∧
    p.homeBySilence.msh.maneuverSpeed = p.msh.maneuverSpeed ∧
    p.homeBySilence.dbm.bus = p.dbm.bus ∧ p.homeBySilence.dbm.number = p.dbm.number ∧
    p.homeBySilence.dbm.resetStops = p.dbm.resetStops ∧ p.homeBySilence.dbm.responseLimit =
    p.dbm.responseLimit ∧ p.homeBySilence.dbm.holdLimit = p.dbm.holdLimit ∧ p.homeBySilence.sin = p.sin ∧
    p.homeBySilence.hre.queue = p.hre.queue ∧ p.homeBySilence.hre.walk = p.hre.walk ∧
    p.homeBySilence.rtu.applying = p.rtu.applying ∧ p.homeBySilence.rtu.params = p.rtu.params ∧
    p.homeBySilence.rtu.distance = p.rtu.distance ∧ p.homeBySilence.rtu.dockKey = p.rtu.dockKey ∧
    p.homeBySilence.rtu.copies = p.rtu.copies ∧ p.homeBySilence.tst.poisoned = p.tst.poisoned ∧
    p.homeBySilence.tst.mode = p.tst.mode ∧ p.homeBySilence.tst.pattern = p.tst.pattern ∧
    p.homeBySilence.tst.capture = p.tst.capture ∧ p.homeBySilence.tst.log = p.tst.log ∧
    p.homeBySilence.tst.scrubPointer = p.tst.scrubPointer ∧ p.homeBySilence.tst.scrubTimer =
    p.tst.scrubTimer ∧ p.homeBySilence.tst.scrubPeriod = p.tst.scrubPeriod ∧ p.homeBySilence.plp.hunt =
    p.plp.hunt ∧ p.homeBySilence.plp.rx = p.plp.rx ∧ p.homeBySilence.plp.op = p.plp.op ∧
    p.homeBySilence.plp.restarting = p.plp.restarting ∧ p.homeBySilence.nco.urgentLevel =
    p.nco.urgentLevel ∧ p.homeBySilence.agenda.period = p.agenda.period ∧ p.homeBySilence.agenda.walk =
    p.agenda.walk ∧ p.homeBySilence.agenda.store = p.agenda.store ∧ p.homeBySilence.agenda.port =
    p.agenda.port ∧ p.homeBySilence.agenda.held = p.agenda.held ∧ p.homeBySilence.agenda.frames =
    p.agenda.frames ∧ p.homeBySilence.clock = p.clock ∧ p.homeBySilence.free = p.free := by
  unfold Part.homeBySilence
  (try dsimp only)
  (repeat' split) <;> simp

@[simp] theorem Part.beginWalk_keeps (p : Part) :
    p.beginWalk.fcu = p.fcu ∧ p.beginWalk.scr = p.scr ∧ p.beginWalk.ltr = p.ltr ∧ p.beginWalk.sq = p.sq ∧
    p.beginWalk.msh = p.msh ∧ p.beginWalk.dbm = p.dbm ∧ p.beginWalk.sin = p.sin ∧ p.beginWalk.hre.active =
    p.hre.active ∧ p.beginWalk.hre.pending = p.hre.pending ∧ p.beginWalk.rtu = p.rtu ∧
    p.beginWalk.tst.poisoned = p.tst.poisoned ∧ p.beginWalk.tst.mode = p.tst.mode ∧
    p.beginWalk.tst.pattern = p.tst.pattern ∧ p.beginWalk.tst.capture = p.tst.capture ∧
    p.beginWalk.tst.log = p.tst.log ∧ p.beginWalk.tst.scrubPointer = p.tst.scrubPointer ∧
    p.beginWalk.tst.scrubTimer = p.tst.scrubTimer ∧ p.beginWalk.tst.scrubPeriod = p.tst.scrubPeriod ∧
    p.beginWalk.tst.current = p.tst.current ∧ p.beginWalk.plp = p.plp ∧ p.beginWalk.nco = p.nco ∧
    p.beginWalk.agenda.blade = p.agenda.blade ∧ p.beginWalk.agenda.deferral = p.agenda.deferral ∧
    p.beginWalk.agenda.removed = p.agenda.removed ∧ p.beginWalk.agenda.starved = p.agenda.starved ∧
    p.beginWalk.agenda.returning = p.agenda.returning ∧ p.beginWalk.agenda.period = p.agenda.period ∧
    p.beginWalk.agenda.walk = p.agenda.walk ∧ p.beginWalk.agenda.bus = p.agenda.bus ∧
    p.beginWalk.agenda.port = p.agenda.port ∧ p.beginWalk.agenda.held = p.agenda.held ∧
    p.beginWalk.agenda.frames = p.agenda.frames ∧ p.beginWalk.clock = p.clock ∧ p.beginWalk.serial =
    p.serial ∧ p.beginWalk.free = p.free := by
  unfold Part.beginWalk
  (try dsimp only)
  (repeat' split) <;> simp

@[simp] theorem Part.endOfTable_keeps (w : Walk) (p : Part) :
    (p.endOfTable w).fcu.keepSilent = p.fcu.keepSilent ∧ (p.endOfTable w).fcu.keepTimer = p.fcu.keepTimer
    ∧ (p.endOfTable w).fcu.keepLimit = p.fcu.keepLimit ∧ (p.endOfTable w).fcu.silentAction =
    p.fcu.silentAction ∧ (p.endOfTable w).fcu.zoneBladeMax = p.fcu.zoneBladeMax ∧ (p.endOfTable
    w).fcu.levelToSend = p.fcu.levelToSend ∧ (p.endOfTable w).scr = p.scr ∧ (p.endOfTable w).ltr = p.ltr ∧
    (p.endOfTable w).sq.refillArmed = p.sq.refillArmed ∧ (p.endOfTable w).sq.starvedArmed =
    p.sq.starvedArmed ∧ (p.endOfTable w).sq.refillMark = p.sq.refillMark ∧ (p.endOfTable w).msh.source =
    p.msh.source ∧ (p.endOfTable w).msh.credited = p.msh.credited ∧ (p.endOfTable w).msh.wheels =
    p.msh.wheels ∧ (p.endOfTable w).msh.odometer = p.msh.odometer ∧ (p.endOfTable w).msh.odometerCarry =
    p.msh.odometerCarry ∧ (p.endOfTable w).msh.progressCarry = p.msh.progressCarry ∧ (p.endOfTable
    w).msh.periodTimer = p.msh.periodTimer ∧ (p.endOfTable w).msh.kilotick = p.msh.kilotick ∧
    (p.endOfTable w).msh.maneuverSpeed = p.msh.maneuverSpeed ∧
    (p.endOfTable w).dbm.bus = p.dbm.bus ∧ (p.endOfTable w).dbm.number = p.dbm.number ∧ (p.endOfTable
    w).dbm.resetStops = p.dbm.resetStops ∧ (p.endOfTable w).dbm.responseLimit = p.dbm.responseLimit ∧
    (p.endOfTable w).dbm.holdLimit = p.dbm.holdLimit ∧ (p.endOfTable w).sin = p.sin ∧ (p.endOfTable
    w).hre.queue = p.hre.queue ∧ (p.endOfTable w).rtu.applying = p.rtu.applying ∧ (p.endOfTable
    w).rtu.copies = p.rtu.copies ∧ (p.endOfTable w).tst.poisoned = p.tst.poisoned ∧ (p.endOfTable
    w).tst.mode = p.tst.mode ∧ (p.endOfTable w).tst.pattern = p.tst.pattern ∧ (p.endOfTable w).tst.capture
    = p.tst.capture ∧ (p.endOfTable w).tst.log = p.tst.log ∧ (p.endOfTable w).tst.scrubPointer =
    p.tst.scrubPointer ∧ (p.endOfTable w).tst.scrubTimer = p.tst.scrubTimer ∧ (p.endOfTable
    w).tst.scrubPeriod = p.tst.scrubPeriod ∧ (p.endOfTable w).plp.hunt = p.plp.hunt ∧ (p.endOfTable
    w).plp.rx = p.plp.rx ∧ (p.endOfTable w).plp.op = p.plp.op ∧ (p.endOfTable w).plp.restarting =
    p.plp.restarting ∧ (p.endOfTable w).nco.urgentLevel = p.nco.urgentLevel ∧ (p.endOfTable
    w).agenda.period = p.agenda.period ∧ (p.endOfTable w).agenda.store = p.agenda.store ∧ (p.endOfTable
    w).agenda.port = p.agenda.port ∧ (p.endOfTable w).agenda.held = p.agenda.held ∧ (p.endOfTable
    w).agenda.frames = p.agenda.frames ∧ (p.endOfTable w).clock = p.clock ∧ (p.endOfTable w).free = p.free
    := by
  unfold Part.endOfTable
  (try dsimp only)
  (repeat' split) <;> simp

@[simp] theorem Part.walkOn_keeps (w : Walk) (index : Nat) (p : Part) :
    (p.walkOn w index).fcu.keepSilent = p.fcu.keepSilent ∧ (p.walkOn w index).fcu.keepTimer =
    p.fcu.keepTimer ∧ (p.walkOn w index).fcu.keepLimit = p.fcu.keepLimit ∧ (p.walkOn w
    index).fcu.silentAction = p.fcu.silentAction ∧ (p.walkOn w index).fcu.zoneBladeMax =
    p.fcu.zoneBladeMax ∧ (p.walkOn w index).fcu.levelToSend = p.fcu.levelToSend ∧ (p.walkOn w index).scr =
    p.scr ∧ (p.walkOn w index).ltr = p.ltr ∧ (p.walkOn w index).sq.refillArmed = p.sq.refillArmed ∧
    (p.walkOn w index).sq.starvedArmed = p.sq.starvedArmed ∧ (p.walkOn w index).sq.refillMark =
    p.sq.refillMark ∧ (p.walkOn w index).msh.source = p.msh.source ∧ (p.walkOn w index).msh.credited =
    p.msh.credited ∧ (p.walkOn w index).msh.wheels = p.msh.wheels ∧ (p.walkOn w index).msh.odometer =
    p.msh.odometer ∧ (p.walkOn w index).msh.odometerCarry = p.msh.odometerCarry ∧ (p.walkOn w
    index).msh.progressCarry = p.msh.progressCarry ∧ (p.walkOn w index).msh.periodTimer =
    p.msh.periodTimer ∧ (p.walkOn w index).msh.kilotick = p.msh.kilotick ∧ (p.walkOn w
    index).msh.maneuverSpeed = p.msh.maneuverSpeed ∧ (p.walkOn w index).dbm.bus =
    p.dbm.bus ∧ (p.walkOn w index).dbm.number = p.dbm.number ∧ (p.walkOn w index).dbm.resetStops =
    p.dbm.resetStops ∧ (p.walkOn w index).dbm.responseLimit = p.dbm.responseLimit ∧ (p.walkOn w
    index).dbm.holdLimit = p.dbm.holdLimit ∧ (p.walkOn w index).sin = p.sin ∧ (p.walkOn w index).hre.queue
    = p.hre.queue ∧ (p.walkOn w index).rtu.applying = p.rtu.applying ∧ (p.walkOn w index).rtu.copies =
    p.rtu.copies ∧ (p.walkOn w index).tst.poisoned = p.tst.poisoned ∧ (p.walkOn w index).tst.mode =
    p.tst.mode ∧ (p.walkOn w index).tst.pattern = p.tst.pattern ∧ (p.walkOn w index).tst.capture =
    p.tst.capture ∧ (p.walkOn w index).tst.log = p.tst.log ∧ (p.walkOn w index).tst.scrubPointer =
    p.tst.scrubPointer ∧ (p.walkOn w index).tst.scrubTimer = p.tst.scrubTimer ∧ (p.walkOn w
    index).tst.scrubPeriod = p.tst.scrubPeriod ∧ (p.walkOn w index).plp.hunt = p.plp.hunt ∧ (p.walkOn w
    index).plp.rx = p.plp.rx ∧ (p.walkOn w index).plp.op = p.plp.op ∧ (p.walkOn w index).plp.restarting =
    p.plp.restarting ∧ (p.walkOn w index).nco.urgentLevel = p.nco.urgentLevel ∧ (p.walkOn w
    index).agenda.period = p.agenda.period ∧ (p.walkOn w index).agenda.port = p.agenda.port ∧ (p.walkOn w
    index).agenda.held = p.agenda.held ∧ (p.walkOn w index).agenda.frames = p.agenda.frames ∧ (p.walkOn w
    index).clock = p.clock ∧ (p.walkOn w index).free = p.free := by
  unfold Part.walkOn
  (try dsimp only)
  (repeat' split) <;> simp

@[simp] theorem Part.walkRead_keeps (result : Option (List Int)) (p : Part) :
    (p.walkRead result).fcu.keepSilent = p.fcu.keepSilent ∧ (p.walkRead result).fcu.keepTimer =
    p.fcu.keepTimer ∧ (p.walkRead result).fcu.keepLimit = p.fcu.keepLimit ∧ (p.walkRead
    result).fcu.silentAction = p.fcu.silentAction ∧ (p.walkRead result).fcu.zoneBladeMax =
    p.fcu.zoneBladeMax ∧ (p.walkRead result).fcu.levelToSend = p.fcu.levelToSend ∧ (p.walkRead result).scr
    = p.scr ∧ (p.walkRead result).ltr = p.ltr ∧ (p.walkRead result).sq.refillArmed = p.sq.refillArmed ∧
    (p.walkRead result).sq.starvedArmed = p.sq.starvedArmed ∧ (p.walkRead result).sq.refillMark =
    p.sq.refillMark ∧ (p.walkRead result).msh.source = p.msh.source ∧ (p.walkRead result).msh.credited =
    p.msh.credited ∧ (p.walkRead result).msh.wheels = p.msh.wheels ∧ (p.walkRead result).msh.odometer =
    p.msh.odometer ∧ (p.walkRead result).msh.odometerCarry = p.msh.odometerCarry ∧ (p.walkRead
    result).msh.progressCarry = p.msh.progressCarry ∧ (p.walkRead result).msh.periodTimer =
    p.msh.periodTimer ∧ (p.walkRead result).msh.kilotick = p.msh.kilotick ∧ (p.walkRead
    result).msh.maneuverSpeed = p.msh.maneuverSpeed ∧ (p.walkRead result).dbm.bus =
    p.dbm.bus ∧ (p.walkRead result).dbm.number = p.dbm.number ∧ (p.walkRead result).dbm.resetStops =
    p.dbm.resetStops ∧ (p.walkRead result).dbm.responseLimit = p.dbm.responseLimit ∧ (p.walkRead
    result).dbm.holdLimit = p.dbm.holdLimit ∧ (p.walkRead result).sin = p.sin ∧ (p.walkRead
    result).hre.queue = p.hre.queue ∧ (p.walkRead result).rtu.applying = p.rtu.applying ∧ (p.walkRead
    result).rtu.copies = p.rtu.copies ∧ (p.walkRead result).tst.poisoned = p.tst.poisoned ∧ (p.walkRead
    result).tst.mode = p.tst.mode ∧ (p.walkRead result).tst.pattern = p.tst.pattern ∧ (p.walkRead
    result).tst.capture = p.tst.capture ∧ (p.walkRead result).tst.log = p.tst.log ∧ (p.walkRead
    result).tst.scrubPointer = p.tst.scrubPointer ∧ (p.walkRead result).tst.scrubTimer = p.tst.scrubTimer
    ∧ (p.walkRead result).tst.scrubPeriod = p.tst.scrubPeriod ∧ (p.walkRead result).plp.hunt = p.plp.hunt
    ∧ (p.walkRead result).plp.rx = p.plp.rx ∧ (p.walkRead result).plp.op = p.plp.op ∧ (p.walkRead
    result).plp.restarting = p.plp.restarting ∧ (p.walkRead result).nco.urgentLevel = p.nco.urgentLevel ∧
    (p.walkRead result).agenda.period = p.agenda.period ∧ (p.walkRead result).agenda.port = p.agenda.port
    ∧ (p.walkRead result).agenda.held = p.agenda.held ∧ (p.walkRead result).agenda.frames =
    p.agenda.frames ∧ (p.walkRead result).clock = p.clock ∧ (p.walkRead result).free = p.free := by
  unfold Part.walkRead
  (try dsimp only)
  (repeat' split) <;> simp

end Sys2Proof.Machine
end

