-- ==== Sys2Proof/Laws/MotionKeeps.lean ====
section
/-! SUPPORT. What the shaper, the correlator, the tracker and the return unit leave of the part. -/

namespace Sys2Proof.Machine

@[simp] theorem Part.creditSegment_keeps (step : Nat) (p : Part) :
    (p.creditSegment step).fcu.mode = p.fcu.mode ∧ (p.creditSegment step).fcu.resume = p.fcu.resume ∧
    (p.creditSegment step).fcu.stopCause = p.fcu.stopCause ∧ (p.creditSegment step).fcu.hazardLevel =
    p.fcu.hazardLevel ∧ (p.creditSegment step).fcu.permission = p.fcu.permission ∧ (p.creditSegment
    step).fcu.keepSilent = p.fcu.keepSilent ∧ (p.creditSegment step).fcu.keepTimer = p.fcu.keepTimer ∧
    (p.creditSegment step).fcu.keepLimit = p.fcu.keepLimit ∧ (p.creditSegment step).fcu.silentAction =
    p.fcu.silentAction ∧ (p.creditSegment step).fcu.zoneBladeMax = p.fcu.zoneBladeMax ∧ (p.creditSegment
    step).fcu.levelToSend = p.fcu.levelToSend ∧ (p.creditSegment step).scr = p.scr ∧ (p.creditSegment
    step).ltr = p.ltr ∧ (p.creditSegment step).sq.refillArmed = p.sq.refillArmed ∧ (p.creditSegment
    step).sq.starvedArmed = p.sq.starvedArmed ∧ (p.creditSegment step).sq.refillMark = p.sq.refillMark ∧
    (p.creditSegment step).msh.previousLeft = p.msh.previousLeft ∧ (p.creditSegment
    step).msh.previousRight = p.msh.previousRight ∧ (p.creditSegment step).msh.errorMemory =
    p.msh.errorMemory ∧ (p.creditSegment step).msh.source = p.msh.source ∧ (p.creditSegment
    step).msh.credited = p.msh.credited ∧ (p.creditSegment step).msh.wheels = p.msh.wheels ∧
    (p.creditSegment step).msh.odometer = p.msh.odometer ∧ (p.creditSegment step).msh.odometerCarry =
    p.msh.odometerCarry ∧ (p.creditSegment step).msh.progressCarry = p.msh.progressCarry ∧
    (p.creditSegment step).msh.periodTimer = p.msh.periodTimer ∧ (p.creditSegment step).msh.computation =
    p.msh.computation ∧ (p.creditSegment step).msh.kilotick = p.msh.kilotick ∧ (p.creditSegment
    step).msh.maneuverSpeed = p.msh.maneuverSpeed ∧ (p.creditSegment
    step).dbm.bus = p.dbm.bus ∧ (p.creditSegment step).dbm.number = p.dbm.number ∧ (p.creditSegment
    step).dbm.resetStops = p.dbm.resetStops ∧ (p.creditSegment step).dbm.responseLimit =
    p.dbm.responseLimit ∧ (p.creditSegment step).dbm.holdLimit = p.dbm.holdLimit ∧ (p.creditSegment
    step).sin = p.sin ∧ (p.creditSegment step).hre = p.hre ∧ (p.creditSegment step).rtu = p.rtu ∧
    (p.creditSegment step).tst = p.tst ∧ (p.creditSegment step).plp.hunt = p.plp.hunt ∧ (p.creditSegment
    step).plp.rx = p.plp.rx ∧ (p.creditSegment step).plp.op = p.plp.op ∧ (p.creditSegment
    step).plp.restarting = p.plp.restarting ∧ (p.creditSegment step).nco.urgentLevel = p.nco.urgentLevel ∧
    (p.creditSegment step).agenda.returning = p.agenda.returning ∧ (p.creditSegment step).agenda.period =
    p.agenda.period ∧ (p.creditSegment step).agenda.walk = p.agenda.walk ∧ (p.creditSegment
    step).agenda.store = p.agenda.store ∧ (p.creditSegment step).agenda.port = p.agenda.port ∧
    (p.creditSegment step).agenda.held = p.agenda.held ∧ (p.creditSegment step).agenda.frames =
    p.agenda.frames ∧ (p.creditSegment step).clock = p.clock ∧ (p.creditSegment step).serial = p.serial ∧
    (p.creditSegment step).free = p.free := by
  unfold Part.creditSegment
  (try dsimp only)
  (repeat' split) <;> simp

@[simp] theorem Part.creditBackTurn_keeps (a : Active) (step : Nat) (p : Part) :
    (p.creditBackTurn a step).fcu.keepSilent = p.fcu.keepSilent ∧ (p.creditBackTurn a step).fcu.keepTimer
    = p.fcu.keepTimer ∧ (p.creditBackTurn a step).fcu.keepLimit = p.fcu.keepLimit ∧ (p.creditBackTurn a
    step).fcu.silentAction = p.fcu.silentAction ∧ (p.creditBackTurn a step).fcu.zoneBladeMax =
    p.fcu.zoneBladeMax ∧ (p.creditBackTurn a step).fcu.levelToSend = p.fcu.levelToSend ∧ (p.creditBackTurn
    a step).scr = p.scr ∧ (p.creditBackTurn a step).ltr = p.ltr ∧ (p.creditBackTurn a step).sq.refillArmed
    = p.sq.refillArmed ∧ (p.creditBackTurn a step).sq.starvedArmed = p.sq.starvedArmed ∧ (p.creditBackTurn
    a step).sq.refillMark = p.sq.refillMark ∧ (p.creditBackTurn a step).msh.source = p.msh.source ∧
    (p.creditBackTurn a step).msh.credited = p.msh.credited ∧ (p.creditBackTurn a step).msh.wheels =
    p.msh.wheels ∧ (p.creditBackTurn a step).msh.odometer = p.msh.odometer ∧ (p.creditBackTurn a
    step).msh.odometerCarry = p.msh.odometerCarry ∧ (p.creditBackTurn a step).msh.progressCarry =
    p.msh.progressCarry ∧ (p.creditBackTurn a step).msh.periodTimer = p.msh.periodTimer ∧
    (p.creditBackTurn a step).msh.kilotick = p.msh.kilotick ∧ (p.creditBackTurn a step).msh.maneuverSpeed
    = p.msh.maneuverSpeed ∧ (p.creditBackTurn a step).dbm.bus =
    p.dbm.bus ∧ (p.creditBackTurn a step).dbm.number = p.dbm.number ∧ (p.creditBackTurn a
    step).dbm.resetStops = p.dbm.resetStops ∧ (p.creditBackTurn a step).dbm.responseLimit =
    p.dbm.responseLimit ∧ (p.creditBackTurn a step).dbm.holdLimit = p.dbm.holdLimit ∧ (p.creditBackTurn a
    step).sin = p.sin ∧ (p.creditBackTurn a step).hre.queue = p.hre.queue ∧ (p.creditBackTurn a
    step).hre.walk = p.hre.walk ∧ (p.creditBackTurn a step).rtu.applying = p.rtu.applying ∧
    (p.creditBackTurn a step).rtu.copies = p.rtu.copies ∧ (p.creditBackTurn a step).tst.poisoned =
    p.tst.poisoned ∧ (p.creditBackTurn a step).tst.mode = p.tst.mode ∧ (p.creditBackTurn a
    step).tst.pattern = p.tst.pattern ∧ (p.creditBackTurn a step).tst.capture = p.tst.capture ∧
    (p.creditBackTurn a step).tst.log = p.tst.log ∧ (p.creditBackTurn a step).tst.scrubPointer =
    p.tst.scrubPointer ∧ (p.creditBackTurn a step).tst.scrubTimer = p.tst.scrubTimer ∧ (p.creditBackTurn a
    step).tst.scrubPeriod = p.tst.scrubPeriod ∧ (p.creditBackTurn a step).plp.hunt = p.plp.hunt ∧
    (p.creditBackTurn a step).plp.rx = p.plp.rx ∧ (p.creditBackTurn a step).plp.op = p.plp.op ∧
    (p.creditBackTurn a step).plp.restarting = p.plp.restarting ∧ (p.creditBackTurn a
    step).nco.urgentLevel = p.nco.urgentLevel ∧ (p.creditBackTurn a step).agenda.period = p.agenda.period
    ∧ (p.creditBackTurn a step).agenda.walk = p.agenda.walk ∧ (p.creditBackTurn a step).agenda.store =
    p.agenda.store ∧ (p.creditBackTurn a step).agenda.port = p.agenda.port ∧ (p.creditBackTurn a
    step).agenda.held = p.agenda.held ∧ (p.creditBackTurn a step).agenda.frames = p.agenda.frames ∧
    (p.creditBackTurn a step).clock = p.clock ∧ (p.creditBackTurn a step).free = p.free := by
  unfold Part.creditBackTurn
  (try dsimp only)
  (repeat' split) <;> simp

/-- At a maneuver speed of 0 a credit leaves a BACK_TURN, and with it the whole part (R153). -/
theorem Part.creditBackTurn_of_speed_zero (a : Active) (step : Nat) (p : Part)
    (h : p.msh.maneuverSpeed = 0) : p.creditBackTurn a step = p := by
  simp [Part.creditBackTurn, h]

/-- A BACK_TURN phase that a credit does not bring to its distance goes on with the step added (R153). -/
theorem Part.creditBackTurn_goes_on (a : Active) (step : Nat) (p : Part) (h : p.msh.maneuverSpeed ≠ 0)
    (hp : a.progress + step < if a.spinning then a.response.spin else a.response.reverse) :
    p.creditBackTurn a step = { p with hre.active := some { a with progress := a.progress + step } } := by
  unfold Part.creditBackTurn
  cases hs : a.spinning <;> simp [hs] at hp <;> simp [h, Nat.not_le.mpr hp]

/-- A REVERSE phase that a credit brings to its distance becomes a SPIN phase with progress 0 (R153). -/
theorem Part.creditBackTurn_begins_spin (a : Active) (step : Nat) (p : Part) (h : p.msh.maneuverSpeed ≠ 0)
    (hs : a.spinning = false) (hp : a.response.reverse ≤ a.progress + step) :
    p.creditBackTurn a step =
      { p with hre.active := some { a with spinning := true, progress := 0 } }.markMotion := by
  simp [Part.creditBackTurn, h, hs, hp]

/-- A SPIN phase that a credit brings to its distance ends the BACK_TURN (R153). -/
theorem Part.creditBackTurn_ends (a : Active) (step : Nat) (p : Part) (h : p.msh.maneuverSpeed ≠ 0)
    (hs : a.spinning = true) (hp : a.response.spin ≤ a.progress + step) :
    p.creditBackTurn a step = p.completeResponse := by
  simp [Part.creditBackTurn, h, hs, hp]

@[simp] theorem Part.creditLeg_keeps (l : Leg) (step : Nat) (p : Part) :
    (p.creditLeg l step).fcu.armRefused = p.fcu.armRefused ∧ (p.creditLeg l step).fcu.keepSilent =
    p.fcu.keepSilent ∧ (p.creditLeg l step).fcu.keepTimer = p.fcu.keepTimer ∧ (p.creditLeg l
    step).fcu.keepLimit = p.fcu.keepLimit ∧ (p.creditLeg l step).fcu.silentAction = p.fcu.silentAction ∧
    (p.creditLeg l step).fcu.zoneBladeMax = p.fcu.zoneBladeMax ∧ (p.creditLeg l step).fcu.levelToSend =
    p.fcu.levelToSend ∧ (p.creditLeg l step).scr = p.scr ∧ (p.creditLeg l step).ltr = p.ltr ∧ (p.creditLeg
    l step).sq.refillArmed = p.sq.refillArmed ∧ (p.creditLeg l step).sq.starvedArmed = p.sq.starvedArmed ∧
    (p.creditLeg l step).sq.refillMark = p.sq.refillMark ∧ (p.creditLeg l step).msh.source = p.msh.source
    ∧ (p.creditLeg l step).msh.credited = p.msh.credited ∧ (p.creditLeg l step).msh.wheels = p.msh.wheels
    ∧ (p.creditLeg l step).msh.odometer = p.msh.odometer ∧ (p.creditLeg l step).msh.odometerCarry =
    p.msh.odometerCarry ∧ (p.creditLeg l step).msh.progress = p.msh.progress ∧ (p.creditLeg l
    step).msh.progressCarry = p.msh.progressCarry ∧ (p.creditLeg l step).msh.periodTimer =
    p.msh.periodTimer ∧ (p.creditLeg l step).msh.kilotick = p.msh.kilotick ∧ (p.creditLeg l
    step).msh.maneuverSpeed = p.msh.maneuverSpeed ∧ (p.creditLeg l step).dbm.bus
    = p.dbm.bus ∧ (p.creditLeg l step).dbm.number = p.dbm.number ∧ (p.creditLeg l step).dbm.resetStops =
    p.dbm.resetStops ∧ (p.creditLeg l step).dbm.responseLimit = p.dbm.responseLimit ∧ (p.creditLeg l
    step).dbm.holdLimit = p.dbm.holdLimit ∧ (p.creditLeg l step).sin = p.sin ∧ (p.creditLeg l
    step).hre.queue = p.hre.queue ∧ (p.creditLeg l step).hre.walk = p.hre.walk ∧ (p.creditLeg l
    step).rtu.applying = p.rtu.applying ∧ (p.creditLeg l step).rtu.params = p.rtu.params ∧ (p.creditLeg l
    step).rtu.distance = p.rtu.distance ∧ (p.creditLeg l step).rtu.dockKey = p.rtu.dockKey ∧ (p.creditLeg
    l step).rtu.copies = p.rtu.copies ∧ (p.creditLeg l step).tst.poisoned = p.tst.poisoned ∧ (p.creditLeg
    l step).tst.mode = p.tst.mode ∧ (p.creditLeg l step).tst.pattern = p.tst.pattern ∧ (p.creditLeg l
    step).tst.capture = p.tst.capture ∧ (p.creditLeg l step).tst.log = p.tst.log ∧ (p.creditLeg l
    step).tst.scrubPointer = p.tst.scrubPointer ∧ (p.creditLeg l step).tst.scrubTimer = p.tst.scrubTimer ∧
    (p.creditLeg l step).tst.scrubPeriod = p.tst.scrubPeriod ∧ (p.creditLeg l step).plp.hunt = p.plp.hunt
    ∧ (p.creditLeg l step).plp.rx = p.plp.rx ∧ (p.creditLeg l step).plp.op = p.plp.op ∧ (p.creditLeg l
    step).plp.restarting = p.plp.restarting ∧ (p.creditLeg l step).nco.urgentLevel = p.nco.urgentLevel ∧
    (p.creditLeg l step).agenda.period = p.agenda.period ∧ (p.creditLeg l step).agenda.walk =
    p.agenda.walk ∧ (p.creditLeg l step).agenda.store = p.agenda.store ∧ (p.creditLeg l step).agenda.port
    = p.agenda.port ∧ (p.creditLeg l step).agenda.held = p.agenda.held ∧ (p.creditLeg l
    step).agenda.frames = p.agenda.frames ∧ (p.creditLeg l step).clock = p.clock ∧ (p.creditLeg l
    step).serial = p.serial ∧ (p.creditLeg l step).free = p.free := by
  unfold Part.creditLeg
  (try dsimp only)
  (repeat' split) <;> simp

@[simp] theorem Part.creditDock_keeps (step : Nat) (p : Part) :
    (p.creditDock step).fcu.armRefused = p.fcu.armRefused ∧ (p.creditDock step).fcu.keepSilent =
    p.fcu.keepSilent ∧ (p.creditDock step).fcu.keepTimer = p.fcu.keepTimer ∧ (p.creditDock
    step).fcu.keepLimit = p.fcu.keepLimit ∧ (p.creditDock step).fcu.silentAction = p.fcu.silentAction ∧
    (p.creditDock step).fcu.zoneBladeMax = p.fcu.zoneBladeMax ∧ (p.creditDock step).fcu.levelToSend =
    p.fcu.levelToSend ∧ (p.creditDock step).scr = p.scr ∧ (p.creditDock step).ltr = p.ltr ∧ (p.creditDock
    step).sq.refillArmed = p.sq.refillArmed ∧ (p.creditDock step).sq.starvedArmed = p.sq.starvedArmed ∧
    (p.creditDock step).sq.refillMark = p.sq.refillMark ∧ (p.creditDock step).msh.source = p.msh.source ∧
    (p.creditDock step).msh.credited = p.msh.credited ∧ (p.creditDock step).msh.wheels = p.msh.wheels ∧
    (p.creditDock step).msh.odometer = p.msh.odometer ∧ (p.creditDock step).msh.odometerCarry =
    p.msh.odometerCarry ∧ (p.creditDock step).msh.progress = p.msh.progress ∧ (p.creditDock
    step).msh.progressCarry = p.msh.progressCarry ∧ (p.creditDock step).msh.periodTimer =
    p.msh.periodTimer ∧ (p.creditDock step).msh.kilotick = p.msh.kilotick ∧ (p.creditDock
    step).msh.maneuverSpeed = p.msh.maneuverSpeed ∧ (p.creditDock step).dbm.bus =
    p.dbm.bus ∧ (p.creditDock step).dbm.number = p.dbm.number ∧ (p.creditDock step).dbm.resetStops =
    p.dbm.resetStops ∧ (p.creditDock step).dbm.responseLimit = p.dbm.responseLimit ∧ (p.creditDock
    step).dbm.holdLimit = p.dbm.holdLimit ∧ (p.creditDock step).sin = p.sin ∧ (p.creditDock
    step).hre.queue = p.hre.queue ∧ (p.creditDock step).hre.walk = p.hre.walk ∧ (p.creditDock
    step).rtu.applying = p.rtu.applying ∧ (p.creditDock step).rtu.copies = p.rtu.copies ∧ (p.creditDock
    step).tst.poisoned = p.tst.poisoned ∧ (p.creditDock step).tst.mode = p.tst.mode ∧ (p.creditDock
    step).tst.pattern = p.tst.pattern ∧ (p.creditDock step).tst.capture = p.tst.capture ∧ (p.creditDock
    step).tst.log = p.tst.log ∧ (p.creditDock step).tst.scrubPointer = p.tst.scrubPointer ∧ (p.creditDock
    step).tst.scrubTimer = p.tst.scrubTimer ∧ (p.creditDock step).tst.scrubPeriod = p.tst.scrubPeriod ∧
    (p.creditDock step).plp.hunt = p.plp.hunt ∧ (p.creditDock step).plp.rx = p.plp.rx ∧ (p.creditDock
    step).plp.op = p.plp.op ∧ (p.creditDock step).plp.restarting = p.plp.restarting ∧ (p.creditDock
    step).nco.urgentLevel = p.nco.urgentLevel ∧ (p.creditDock step).agenda.period = p.agenda.period ∧
    (p.creditDock step).agenda.walk = p.agenda.walk ∧ (p.creditDock step).agenda.store = p.agenda.store ∧
    (p.creditDock step).agenda.port = p.agenda.port ∧ (p.creditDock step).agenda.held = p.agenda.held ∧
    (p.creditDock step).agenda.frames = p.agenda.frames ∧ (p.creditDock step).clock = p.clock ∧
    (p.creditDock step).free = p.free := by
  unfold Part.creditDock
  (try dsimp only)
  (repeat' split) <;> simp

@[simp] theorem Part.creditSource_keeps (step : Nat) (p : Part) :
    (p.creditSource step).fcu.keepSilent = p.fcu.keepSilent ∧ (p.creditSource step).fcu.keepTimer =
    p.fcu.keepTimer ∧ (p.creditSource step).fcu.keepLimit = p.fcu.keepLimit ∧ (p.creditSource
    step).fcu.silentAction = p.fcu.silentAction ∧ (p.creditSource step).fcu.zoneBladeMax =
    p.fcu.zoneBladeMax ∧ (p.creditSource step).fcu.levelToSend = p.fcu.levelToSend ∧ (p.creditSource
    step).scr = p.scr ∧ (p.creditSource step).ltr = p.ltr ∧ (p.creditSource step).sq.refillArmed =
    p.sq.refillArmed ∧ (p.creditSource step).sq.starvedArmed = p.sq.starvedArmed ∧ (p.creditSource
    step).sq.refillMark = p.sq.refillMark ∧ (p.creditSource step).msh.source = p.msh.source ∧
    (p.creditSource step).msh.credited = p.msh.credited ∧ (p.creditSource step).msh.wheels = p.msh.wheels
    ∧ (p.creditSource step).msh.odometer = p.msh.odometer ∧ (p.creditSource step).msh.odometerCarry =
    p.msh.odometerCarry ∧ (p.creditSource step).msh.progressCarry = p.msh.progressCarry ∧ (p.creditSource
    step).msh.periodTimer = p.msh.periodTimer ∧ (p.creditSource step).msh.kilotick = p.msh.kilotick ∧
    (p.creditSource step).msh.maneuverSpeed = p.msh.maneuverSpeed ∧
    (p.creditSource step).dbm.bus = p.dbm.bus ∧ (p.creditSource step).dbm.number = p.dbm.number ∧
    (p.creditSource step).dbm.resetStops = p.dbm.resetStops ∧ (p.creditSource step).dbm.responseLimit =
    p.dbm.responseLimit ∧ (p.creditSource step).dbm.holdLimit = p.dbm.holdLimit ∧ (p.creditSource
    step).sin = p.sin ∧ (p.creditSource step).hre.queue = p.hre.queue ∧ (p.creditSource step).hre.walk =
    p.hre.walk ∧ (p.creditSource step).rtu.applying = p.rtu.applying ∧ (p.creditSource step).rtu.copies =
    p.rtu.copies ∧ (p.creditSource step).tst.poisoned = p.tst.poisoned ∧ (p.creditSource step).tst.mode =
    p.tst.mode ∧ (p.creditSource step).tst.pattern = p.tst.pattern ∧ (p.creditSource step).tst.capture =
    p.tst.capture ∧ (p.creditSource step).tst.log = p.tst.log ∧ (p.creditSource step).tst.scrubPointer =
    p.tst.scrubPointer ∧ (p.creditSource step).tst.scrubTimer = p.tst.scrubTimer ∧ (p.creditSource
    step).tst.scrubPeriod = p.tst.scrubPeriod ∧ (p.creditSource step).plp.hunt = p.plp.hunt ∧
    (p.creditSource step).plp.rx = p.plp.rx ∧ (p.creditSource step).plp.op = p.plp.op ∧ (p.creditSource
    step).plp.restarting = p.plp.restarting ∧ (p.creditSource step).nco.urgentLevel = p.nco.urgentLevel ∧
    (p.creditSource step).agenda.period = p.agenda.period ∧ (p.creditSource step).agenda.walk =
    p.agenda.walk ∧ (p.creditSource step).agenda.store = p.agenda.store ∧ (p.creditSource
    step).agenda.port = p.agenda.port ∧ (p.creditSource step).agenda.held = p.agenda.held ∧
    (p.creditSource step).agenda.frames = p.agenda.frames ∧ (p.creditSource step).clock = p.clock ∧
    (p.creditSource step).free = p.free := by
  unfold Part.creditSource
  (try dsimp only)
  (repeat' split) <;> simp

@[simp] theorem Part.creditInterval_keeps (p : Part) :
    p.creditInterval.fcu.keepSilent = p.fcu.keepSilent ∧ p.creditInterval.fcu.keepTimer = p.fcu.keepTimer
    ∧ p.creditInterval.fcu.keepLimit = p.fcu.keepLimit ∧ p.creditInterval.fcu.silentAction =
    p.fcu.silentAction ∧ p.creditInterval.fcu.zoneBladeMax = p.fcu.zoneBladeMax ∧
    p.creditInterval.fcu.levelToSend = p.fcu.levelToSend ∧ p.creditInterval.scr = p.scr ∧
    p.creditInterval.ltr = p.ltr ∧ p.creditInterval.sq.refillArmed = p.sq.refillArmed ∧
    p.creditInterval.sq.starvedArmed = p.sq.starvedArmed ∧ p.creditInterval.sq.refillMark =
    p.sq.refillMark ∧ p.creditInterval.msh.source = p.msh.source ∧ p.creditInterval.msh.periodTimer =
    p.msh.periodTimer ∧ p.creditInterval.msh.kilotick = p.msh.kilotick ∧
    p.creditInterval.msh.maneuverSpeed = p.msh.maneuverSpeed ∧ p.creditInterval.dbm.bus =
    p.dbm.bus ∧ p.creditInterval.dbm.number = p.dbm.number ∧ p.creditInterval.dbm.resetStops =
    p.dbm.resetStops ∧ p.creditInterval.dbm.responseLimit = p.dbm.responseLimit ∧
    p.creditInterval.dbm.holdLimit = p.dbm.holdLimit ∧ p.creditInterval.sin = p.sin ∧
    p.creditInterval.hre.queue = p.hre.queue ∧ p.creditInterval.hre.walk = p.hre.walk ∧
    p.creditInterval.rtu.applying = p.rtu.applying ∧ p.creditInterval.rtu.copies = p.rtu.copies ∧
    p.creditInterval.tst.poisoned = p.tst.poisoned ∧ p.creditInterval.tst.mode = p.tst.mode ∧
    p.creditInterval.tst.pattern = p.tst.pattern ∧ p.creditInterval.tst.capture = p.tst.capture ∧
    p.creditInterval.tst.log = p.tst.log ∧ p.creditInterval.tst.scrubPointer = p.tst.scrubPointer ∧
    p.creditInterval.tst.scrubTimer = p.tst.scrubTimer ∧ p.creditInterval.tst.scrubPeriod =
    p.tst.scrubPeriod ∧ p.creditInterval.plp.hunt = p.plp.hunt ∧ p.creditInterval.plp.rx = p.plp.rx ∧
    p.creditInterval.plp.op = p.plp.op ∧ p.creditInterval.plp.restarting = p.plp.restarting ∧
    p.creditInterval.nco.urgentLevel = p.nco.urgentLevel ∧ p.creditInterval.agenda.period =
    p.agenda.period ∧ p.creditInterval.agenda.walk = p.agenda.walk ∧ p.creditInterval.agenda.store =
    p.agenda.store ∧ p.creditInterval.agenda.port = p.agenda.port ∧ p.creditInterval.agenda.held =
    p.agenda.held ∧ p.creditInterval.agenda.frames = p.agenda.frames ∧ p.creditInterval.clock = p.clock ∧
    p.creditInterval.free = p.free := by
  unfold Part.creditInterval
  (try dsimp only)
  (repeat' split) <;> simp

@[simp] theorem Part.dropComputation_keeps (c : Computation) (p : Part) :
    (p.dropComputation c).fcu = p.fcu ∧ (p.dropComputation c).scr = p.scr ∧ (p.dropComputation c).ltr =
    p.ltr ∧ (p.dropComputation c).sq = p.sq ∧ (p.dropComputation c).msh.previousLeft = p.msh.previousLeft
    ∧ (p.dropComputation c).msh.previousRight = p.msh.previousRight ∧ (p.dropComputation c).msh.source =
    p.msh.source ∧ (p.dropComputation c).msh.credited = p.msh.credited ∧ (p.dropComputation c).msh.wheels
    = p.msh.wheels ∧ (p.dropComputation c).msh.odometer = p.msh.odometer ∧ (p.dropComputation
    c).msh.odometerCarry = p.msh.odometerCarry ∧ (p.dropComputation c).msh.progress = p.msh.progress ∧
    (p.dropComputation c).msh.progressCarry = p.msh.progressCarry ∧ (p.dropComputation c).msh.periodTimer
    = p.msh.periodTimer ∧ (p.dropComputation c).msh.kilotick = p.msh.kilotick ∧ (p.dropComputation
    c).msh.maneuverSpeed = p.msh.maneuverSpeed ∧ (p.dropComputation c).dbm
    = p.dbm ∧ (p.dropComputation c).sin = p.sin ∧ (p.dropComputation c).hre = p.hre ∧ (p.dropComputation
    c).rtu = p.rtu ∧ (p.dropComputation c).tst = p.tst ∧ (p.dropComputation c).plp = p.plp ∧
    (p.dropComputation c).nco = p.nco ∧ (p.dropComputation c).agenda = p.agenda ∧ (p.dropComputation
    c).clock = p.clock ∧ (p.dropComputation c).serial = p.serial ∧ (p.dropComputation c).free = p.free :=
    by
  unfold Part.dropComputation
  (try dsimp only)
  (repeat' split) <;> simp

@[simp] theorem Part.finishComputation_keeps (c : Computation) (v : List Int) (entry : Option (List Int))
(p : Part) :
    (p.finishComputation c v entry).fcu = p.fcu ∧ (p.finishComputation c v entry).scr = p.scr ∧
    (p.finishComputation c v entry).ltr = p.ltr ∧ (p.finishComputation c v entry).sq = p.sq ∧
    (p.finishComputation c v entry).msh.source = p.msh.source ∧ (p.finishComputation c v
    entry).msh.credited = p.msh.credited ∧ (p.finishComputation c v entry).msh.wheels = p.msh.wheels ∧
    (p.finishComputation c v entry).msh.odometer = p.msh.odometer ∧ (p.finishComputation c v
    entry).msh.odometerCarry = p.msh.odometerCarry ∧ (p.finishComputation c v entry).msh.progress =
    p.msh.progress ∧ (p.finishComputation c v entry).msh.progressCarry = p.msh.progressCarry ∧
    (p.finishComputation c v entry).msh.periodTimer = p.msh.periodTimer ∧ (p.finishComputation c v
    entry).msh.kilotick = p.msh.kilotick ∧ (p.finishComputation c v
    entry).msh.maneuverSpeed = p.msh.maneuverSpeed ∧ (p.finishComputation c v entry).dbm.bus = p.dbm.bus ∧
    (p.finishComputation c v entry).dbm.interlock = p.dbm.interlock ∧ (p.finishComputation c v
    entry).dbm.number = p.dbm.number ∧ (p.finishComputation c v entry).dbm.resetStops = p.dbm.resetStops ∧
    (p.finishComputation c v entry).dbm.responseLimit = p.dbm.responseLimit ∧ (p.finishComputation c v
    entry).dbm.holdLimit = p.dbm.holdLimit ∧ (p.finishComputation c v entry).sin = p.sin ∧
    (p.finishComputation c v entry).hre = p.hre ∧ (p.finishComputation c v entry).rtu = p.rtu ∧
    (p.finishComputation c v entry).tst = p.tst ∧ (p.finishComputation c v entry).plp = p.plp ∧
    (p.finishComputation c v entry).nco = p.nco ∧ (p.finishComputation c v entry).agenda.blade =
    p.agenda.blade ∧ (p.finishComputation c v entry).agenda.deferral = p.agenda.deferral ∧
    (p.finishComputation c v entry).agenda.removed = p.agenda.removed ∧ (p.finishComputation c v
    entry).agenda.starved = p.agenda.starved ∧ (p.finishComputation c v entry).agenda.returning =
    p.agenda.returning ∧ (p.finishComputation c v entry).agenda.period = p.agenda.period ∧
    (p.finishComputation c v entry).agenda.walk = p.agenda.walk ∧ (p.finishComputation c v
    entry).agenda.store = p.agenda.store ∧ (p.finishComputation c v entry).agenda.port = p.agenda.port ∧
    (p.finishComputation c v entry).agenda.held = p.agenda.held ∧ (p.finishComputation c v
    entry).agenda.frames = p.agenda.frames ∧ (p.finishComputation c v entry).clock = p.clock ∧
    (p.finishComputation c v entry).serial = p.serial ∧ (p.finishComputation c v entry).free = p.free :=
    by
  unfold Part.finishComputation
  (try dsimp only)
  (repeat' split) <;> simp

@[simp] theorem Part.noteSource_keeps (p : Part) :
    p.noteSource.fcu = p.fcu ∧ p.noteSource.scr = p.scr ∧ p.noteSource.ltr = p.ltr ∧ p.noteSource.sq =
    p.sq ∧ p.noteSource.msh.previousLeft = p.msh.previousLeft ∧ p.noteSource.msh.previousRight =
    p.msh.previousRight ∧ p.noteSource.msh.errorMemory = p.msh.errorMemory ∧ p.noteSource.msh.source =
    p.msh.source ∧ p.noteSource.msh.credited = p.msh.credited ∧ p.noteSource.msh.wheels = p.msh.wheels ∧
    p.noteSource.msh.odometer = p.msh.odometer ∧ p.noteSource.msh.odometerCarry = p.msh.odometerCarry ∧
    p.noteSource.msh.progress = p.msh.progress ∧ p.noteSource.msh.progressCarry = p.msh.progressCarry ∧
    p.noteSource.msh.periodTimer = p.msh.periodTimer ∧ p.noteSource.msh.kilotick = p.msh.kilotick ∧
    p.noteSource.msh.maneuverSpeed = p.msh.maneuverSpeed ∧
    p.noteSource.dbm = p.dbm ∧ p.noteSource.sin = p.sin ∧ p.noteSource.hre = p.hre ∧ p.noteSource.rtu =
    p.rtu ∧ p.noteSource.tst = p.tst ∧ p.noteSource.plp = p.plp ∧ p.noteSource.nco = p.nco ∧
    p.noteSource.agenda = p.agenda ∧ p.noteSource.clock = p.clock ∧ p.noteSource.serial = p.serial ∧
    p.noteSource.free = p.free := by
  unfold Part.noteSource
  (try dsimp only)
  (repeat' split) <;> simp

@[simp] theorem Part.beginComputation_keeps (p : Part) :
    p.beginComputation.fcu = p.fcu ∧ p.beginComputation.scr = p.scr ∧ p.beginComputation.ltr = p.ltr ∧
    p.beginComputation.sq = p.sq ∧ p.beginComputation.msh.previousLeft = p.msh.previousLeft ∧
    p.beginComputation.msh.previousRight = p.msh.previousRight ∧ p.beginComputation.msh.errorMemory =
    p.msh.errorMemory ∧ p.beginComputation.msh.credited = p.msh.credited ∧ p.beginComputation.msh.wheels =
    p.msh.wheels ∧ p.beginComputation.msh.odometer = p.msh.odometer ∧ p.beginComputation.msh.odometerCarry
    = p.msh.odometerCarry ∧ p.beginComputation.msh.progress = p.msh.progress ∧
    p.beginComputation.msh.progressCarry = p.msh.progressCarry ∧ p.beginComputation.msh.periodTimer =
    p.msh.periodTimer ∧ p.beginComputation.msh.kilotick = p.msh.kilotick ∧
    p.beginComputation.msh.maneuverSpeed = p.msh.maneuverSpeed ∧ p.beginComputation.dbm = p.dbm
    ∧ p.beginComputation.sin = p.sin ∧ p.beginComputation.hre = p.hre ∧ p.beginComputation.rtu = p.rtu ∧
    p.beginComputation.tst.poisoned = p.tst.poisoned ∧ p.beginComputation.tst.mode = p.tst.mode ∧
    p.beginComputation.tst.pattern = p.tst.pattern ∧ p.beginComputation.tst.capture = p.tst.capture ∧
    p.beginComputation.tst.log = p.tst.log ∧ p.beginComputation.tst.scrubPointer = p.tst.scrubPointer ∧
    p.beginComputation.tst.scrubTimer = p.tst.scrubTimer ∧ p.beginComputation.tst.scrubPeriod =
    p.tst.scrubPeriod ∧ p.beginComputation.tst.current = p.tst.current ∧ p.beginComputation.plp = p.plp ∧
    p.beginComputation.nco = p.nco ∧ p.beginComputation.agenda.blade = p.agenda.blade ∧
    p.beginComputation.agenda.deferral = p.agenda.deferral ∧ p.beginComputation.agenda.removed =
    p.agenda.removed ∧ p.beginComputation.agenda.starved = p.agenda.starved ∧
    p.beginComputation.agenda.returning = p.agenda.returning ∧ p.beginComputation.agenda.period =
    p.agenda.period ∧ p.beginComputation.agenda.walk = p.agenda.walk ∧ p.beginComputation.agenda.bus =
    p.agenda.bus ∧ p.beginComputation.agenda.port = p.agenda.port ∧ p.beginComputation.agenda.held =
    p.agenda.held ∧ p.beginComputation.agenda.frames = p.agenda.frames ∧ p.beginComputation.clock =
    p.clock ∧ p.beginComputation.serial = p.serial ∧ p.beginComputation.free = p.free := by
  unfold Part.beginComputation
  (try dsimp only)
  (repeat' split) <;> simp

@[simp] theorem Part.shaperRead_keeps (result : Option (List Int)) (p : Part) :
    (p.shaperRead result).fcu = p.fcu ∧ (p.shaperRead result).scr = p.scr ∧ (p.shaperRead result).ltr =
    p.ltr ∧ (p.shaperRead result).sq = p.sq ∧ (p.shaperRead result).msh.source = p.msh.source ∧
    (p.shaperRead result).msh.credited = p.msh.credited ∧ (p.shaperRead result).msh.wheels = p.msh.wheels
    ∧ (p.shaperRead result).msh.odometer = p.msh.odometer ∧ (p.shaperRead result).msh.odometerCarry =
    p.msh.odometerCarry ∧ (p.shaperRead result).msh.progress = p.msh.progress ∧ (p.shaperRead
    result).msh.progressCarry = p.msh.progressCarry ∧ (p.shaperRead result).msh.periodTimer =
    p.msh.periodTimer ∧ (p.shaperRead result).msh.kilotick = p.msh.kilotick ∧ (p.shaperRead
    result).dbm.bus = p.dbm.bus ∧ (p.shaperRead result).dbm.interlock = p.dbm.interlock ∧ (p.shaperRead
    result).dbm.number = p.dbm.number ∧ (p.shaperRead result).dbm.resetStops = p.dbm.resetStops ∧
    (p.shaperRead result).sin = p.sin ∧ (p.shaperRead result).hre = p.hre ∧ (p.shaperRead result).rtu =
    p.rtu ∧ (p.shaperRead result).tst.poisoned = p.tst.poisoned ∧ (p.shaperRead result).tst.mode =
    p.tst.mode ∧ (p.shaperRead result).tst.pattern = p.tst.pattern ∧ (p.shaperRead result).tst.capture =
    p.tst.capture ∧ (p.shaperRead result).tst.log = p.tst.log ∧ (p.shaperRead result).tst.scrubPointer =
    p.tst.scrubPointer ∧ (p.shaperRead result).tst.scrubTimer = p.tst.scrubTimer ∧ (p.shaperRead
    result).tst.scrubPeriod = p.tst.scrubPeriod ∧ (p.shaperRead result).tst.current = p.tst.current ∧
    (p.shaperRead result).plp = p.plp ∧ (p.shaperRead result).nco = p.nco ∧ (p.shaperRead
    result).agenda.blade = p.agenda.blade ∧ (p.shaperRead result).agenda.deferral = p.agenda.deferral ∧
    (p.shaperRead result).agenda.removed = p.agenda.removed ∧ (p.shaperRead result).agenda.starved =
    p.agenda.starved ∧ (p.shaperRead result).agenda.returning = p.agenda.returning ∧ (p.shaperRead
    result).agenda.period = p.agenda.period ∧ (p.shaperRead result).agenda.walk = p.agenda.walk ∧
    (p.shaperRead result).agenda.port = p.agenda.port ∧ (p.shaperRead result).agenda.held = p.agenda.held
    ∧ (p.shaperRead result).agenda.frames = p.agenda.frames ∧ (p.shaperRead result).clock = p.clock ∧
    (p.shaperRead result).serial = p.serial ∧ (p.shaperRead result).free = p.free := by
  unfold Part.shaperRead
  (try dsimp only)
  (repeat' split) <;> simp

@[simp] theorem Part.convertTicks_keeps (n : Fin 3) (count : BitVec 16) (p : Part) :
    (p.convertTicks n count).fcu = p.fcu ∧ (p.convertTicks n count).scr = p.scr ∧ (p.convertTicks n
    count).ltr = p.ltr ∧ (p.convertTicks n count).sq = p.sq ∧ (p.convertTicks n count).msh.previousLeft =
    p.msh.previousLeft ∧ (p.convertTicks n count).msh.previousRight = p.msh.previousRight ∧
    (p.convertTicks n count).msh.errorMemory = p.msh.errorMemory ∧ (p.convertTicks n count).msh.source =
    p.msh.source ∧ (p.convertTicks n count).msh.credited = p.msh.credited ∧ (p.convertTicks n
    count).msh.odometer = p.msh.odometer ∧ (p.convertTicks n count).msh.odometerCarry =
    p.msh.odometerCarry ∧ (p.convertTicks n count).msh.progress = p.msh.progress ∧ (p.convertTicks n
    count).msh.progressCarry = p.msh.progressCarry ∧ (p.convertTicks n count).msh.periodTimer =
    p.msh.periodTimer ∧ (p.convertTicks n count).msh.computation = p.msh.computation ∧ (p.convertTicks n
    count).msh.kilotick = p.msh.kilotick ∧ (p.convertTicks n
    count).msh.maneuverSpeed = p.msh.maneuverSpeed ∧ (p.convertTicks n count).dbm = p.dbm ∧
    (p.convertTicks n
    count).sin = p.sin ∧ (p.convertTicks n count).hre = p.hre ∧ (p.convertTicks n count).rtu = p.rtu ∧
    (p.convertTicks n count).tst = p.tst ∧ (p.convertTicks n count).plp = p.plp ∧ (p.convertTicks n
    count).nco = p.nco ∧ (p.convertTicks n count).agenda = p.agenda ∧ (p.convertTicks n count).clock =
    p.clock ∧ (p.convertTicks n count).serial = p.serial ∧ (p.convertTicks n count).free = p.free := by
  unfold Part.convertTicks
  (try dsimp only)
  (repeat' split) <;> simp

@[simp] theorem Part.beginFrame_keeps (f : CoilFrame) (p : Part) :
    (p.beginFrame f).fcu = p.fcu ∧ (p.beginFrame f).scr.readings = p.scr.readings ∧ (p.beginFrame
    f).scr.waiting = p.scr.waiting ∧ (p.beginFrame f).ltr = p.ltr ∧ (p.beginFrame f).sq = p.sq ∧
    (p.beginFrame f).msh = p.msh ∧ (p.beginFrame f).dbm = p.dbm ∧ (p.beginFrame f).sin = p.sin ∧
    (p.beginFrame f).hre = p.hre ∧ (p.beginFrame f).rtu = p.rtu ∧ (p.beginFrame f).tst.poisoned =
    p.tst.poisoned ∧ (p.beginFrame f).tst.mode = p.tst.mode ∧ (p.beginFrame f).tst.pattern = p.tst.pattern
    ∧ (p.beginFrame f).tst.capture = p.tst.capture ∧ (p.beginFrame f).tst.log = p.tst.log ∧ (p.beginFrame
    f).tst.scrubPointer = p.tst.scrubPointer ∧ (p.beginFrame f).tst.scrubTimer = p.tst.scrubTimer ∧
    (p.beginFrame f).tst.scrubPeriod = p.tst.scrubPeriod ∧ (p.beginFrame f).tst.current = p.tst.current ∧
    (p.beginFrame f).plp = p.plp ∧ (p.beginFrame f).nco = p.nco ∧ (p.beginFrame f).agenda.blade =
    p.agenda.blade ∧ (p.beginFrame f).agenda.deferral = p.agenda.deferral ∧ (p.beginFrame
    f).agenda.removed = p.agenda.removed ∧ (p.beginFrame f).agenda.starved = p.agenda.starved ∧
    (p.beginFrame f).agenda.returning = p.agenda.returning ∧ (p.beginFrame f).agenda.period =
    p.agenda.period ∧ (p.beginFrame f).agenda.walk = p.agenda.walk ∧ (p.beginFrame f).agenda.bus =
    p.agenda.bus ∧ (p.beginFrame f).agenda.port = p.agenda.port ∧ (p.beginFrame f).agenda.held =
    p.agenda.held ∧ (p.beginFrame f).agenda.frames = p.agenda.frames ∧ (p.beginFrame f).clock = p.clock ∧
    (p.beginFrame f).serial = p.serial ∧ (p.beginFrame f).free = p.free := by
  unfold Part.beginFrame
  (try dsimp only)
  (repeat' split) <;> simp

@[simp] theorem Part.takeCoilFrame_keeps (f : CoilFrame) (p : Part) :
    (p.takeCoilFrame f).fcu = p.fcu ∧ (p.takeCoilFrame f).scr.readings = p.scr.readings ∧ (p.takeCoilFrame
    f).ltr = p.ltr ∧ (p.takeCoilFrame f).sq = p.sq ∧ (p.takeCoilFrame f).msh = p.msh ∧ (p.takeCoilFrame
    f).dbm = p.dbm ∧ (p.takeCoilFrame f).sin = p.sin ∧ (p.takeCoilFrame f).hre = p.hre ∧ (p.takeCoilFrame
    f).rtu = p.rtu ∧ (p.takeCoilFrame f).tst.poisoned = p.tst.poisoned ∧ (p.takeCoilFrame f).tst.mode =
    p.tst.mode ∧ (p.takeCoilFrame f).tst.pattern = p.tst.pattern ∧ (p.takeCoilFrame f).tst.capture =
    p.tst.capture ∧ (p.takeCoilFrame f).tst.log = p.tst.log ∧ (p.takeCoilFrame f).tst.scrubPointer =
    p.tst.scrubPointer ∧ (p.takeCoilFrame f).tst.scrubTimer = p.tst.scrubTimer ∧ (p.takeCoilFrame
    f).tst.scrubPeriod = p.tst.scrubPeriod ∧ (p.takeCoilFrame f).tst.current = p.tst.current ∧
    (p.takeCoilFrame f).plp = p.plp ∧ (p.takeCoilFrame f).nco = p.nco ∧ (p.takeCoilFrame f).agenda.blade =
    p.agenda.blade ∧ (p.takeCoilFrame f).agenda.deferral = p.agenda.deferral ∧ (p.takeCoilFrame
    f).agenda.removed = p.agenda.removed ∧ (p.takeCoilFrame f).agenda.starved = p.agenda.starved ∧
    (p.takeCoilFrame f).agenda.returning = p.agenda.returning ∧ (p.takeCoilFrame f).agenda.period =
    p.agenda.period ∧ (p.takeCoilFrame f).agenda.walk = p.agenda.walk ∧ (p.takeCoilFrame f).agenda.bus =
    p.agenda.bus ∧ (p.takeCoilFrame f).agenda.port = p.agenda.port ∧ (p.takeCoilFrame f).agenda.held =
    p.agenda.held ∧ (p.takeCoilFrame f).agenda.frames = p.agenda.frames ∧ (p.takeCoilFrame f).clock =
    p.clock ∧ (p.takeCoilFrame f).serial = p.serial ∧ (p.takeCoilFrame f).free = p.free := by
  unfold Part.takeCoilFrame
  (try dsimp only)
  (repeat' split) <;> simp

@[simp] theorem Part.routeLost_keeps (c : Crossing) (p : Part) :
    (p.routeLost c).fcu = p.fcu ∧ (p.routeLost c).scr = p.scr ∧ (p.routeLost c).ltr = p.ltr ∧ (p.routeLost
    c).sq = p.sq ∧ (p.routeLost c).msh = p.msh ∧ (p.routeLost c).dbm = p.dbm ∧ (p.routeLost c).sin = p.sin
    ∧ (p.routeLost c).hre = p.hre ∧ (p.routeLost c).rtu.stack = p.rtu.stack ∧ (p.routeLost
    c).rtu.crossings = p.rtu.crossings ∧ (p.routeLost c).rtu.applying = p.rtu.applying ∧ (p.routeLost
    c).rtu.planDue = p.rtu.planDue ∧ (p.routeLost c).rtu.planning = p.rtu.planning ∧ (p.routeLost
    c).rtu.leg = p.rtu.leg ∧ (p.routeLost c).rtu.activity = p.rtu.activity ∧ (p.routeLost c).rtu.params =
    p.rtu.params ∧ (p.routeLost c).rtu.distance = p.rtu.distance ∧ (p.routeLost c).rtu.finalApproach =
    p.rtu.finalApproach ∧ (p.routeLost c).rtu.dockKey = p.rtu.dockKey ∧ (p.routeLost c).rtu.attempts =
    p.rtu.attempts ∧ (p.routeLost c).rtu.settle = p.rtu.settle ∧ (p.routeLost c).rtu.copies = p.rtu.copies
    ∧ (p.routeLost c).tst = p.tst ∧ (p.routeLost c).plp.hunt = p.plp.hunt ∧ (p.routeLost c).plp.rx =
    p.plp.rx ∧ (p.routeLost c).plp.op = p.plp.op ∧ (p.routeLost c).plp.restarting = p.plp.restarting ∧
    (p.routeLost c).nco.urgentLevel = p.nco.urgentLevel ∧ (p.routeLost c).agenda = p.agenda ∧ (p.routeLost
    c).clock = p.clock ∧ (p.routeLost c).serial = p.serial ∧ (p.routeLost c).free = p.free := by
  unfold Part.routeLost
  (try dsimp only)
  (repeat' split) <;> simp

@[simp] theorem Part.receiveCrossing_keeps (c : Crossing) (p : Part) :
    (p.receiveCrossing c).fcu = p.fcu ∧ (p.receiveCrossing c).scr = p.scr ∧ (p.receiveCrossing c).ltr =
    p.ltr ∧ (p.receiveCrossing c).sq = p.sq ∧ (p.receiveCrossing c).msh = p.msh ∧ (p.receiveCrossing
    c).dbm = p.dbm ∧ (p.receiveCrossing c).sin = p.sin ∧ (p.receiveCrossing c).hre = p.hre ∧
    (p.receiveCrossing c).rtu.stack = p.rtu.stack ∧ (p.receiveCrossing c).rtu.applying = p.rtu.applying ∧
    (p.receiveCrossing c).rtu.planDue = p.rtu.planDue ∧ (p.receiveCrossing c).rtu.planning =
    p.rtu.planning ∧ (p.receiveCrossing c).rtu.leg = p.rtu.leg ∧ (p.receiveCrossing c).rtu.activity =
    p.rtu.activity ∧ (p.receiveCrossing c).rtu.params = p.rtu.params ∧ (p.receiveCrossing c).rtu.distance
    = p.rtu.distance ∧ (p.receiveCrossing c).rtu.finalApproach = p.rtu.finalApproach ∧ (p.receiveCrossing
    c).rtu.dockKey = p.rtu.dockKey ∧ (p.receiveCrossing c).rtu.attempts = p.rtu.attempts ∧
    (p.receiveCrossing c).rtu.settle = p.rtu.settle ∧ (p.receiveCrossing c).rtu.copies = p.rtu.copies ∧
    (p.receiveCrossing c).tst = p.tst ∧ (p.receiveCrossing c).plp.hunt = p.plp.hunt ∧ (p.receiveCrossing
    c).plp.rx = p.plp.rx ∧ (p.receiveCrossing c).plp.op = p.plp.op ∧ (p.receiveCrossing c).plp.restarting
    = p.plp.restarting ∧ (p.receiveCrossing c).nco.urgentLevel = p.nco.urgentLevel ∧ (p.receiveCrossing
    c).agenda.blade = p.agenda.blade ∧ (p.receiveCrossing c).agenda.deferral = p.agenda.deferral ∧
    (p.receiveCrossing c).agenda.removed = p.agenda.removed ∧ (p.receiveCrossing c).agenda.starved =
    p.agenda.starved ∧ (p.receiveCrossing c).agenda.period = p.agenda.period ∧ (p.receiveCrossing
    c).agenda.walk = p.agenda.walk ∧ (p.receiveCrossing c).agenda.bus = p.agenda.bus ∧ (p.receiveCrossing
    c).agenda.store = p.agenda.store ∧ (p.receiveCrossing c).agenda.port = p.agenda.port ∧
    (p.receiveCrossing c).agenda.held = p.agenda.held ∧ (p.receiveCrossing c).agenda.frames =
    p.agenda.frames ∧ (p.receiveCrossing c).clock = p.clock ∧ (p.receiveCrossing c).serial = p.serial ∧
    (p.receiveCrossing c).free = p.free := by
  unfold Part.receiveCrossing
  (try dsimp only)
  (repeat' split) <;> simp

@[simp] theorem Part.beginEval_keeps (p : Part) :
    p.beginEval.fcu = p.fcu ∧ p.beginEval.scr = p.scr ∧ p.beginEval.ltr.tracks = p.ltr.tracks ∧
    p.beginEval.ltr.zone = p.ltr.zone ∧ p.beginEval.ltr.lastZone = p.ltr.lastZone ∧
    p.beginEval.ltr.reevaluate = p.ltr.reevaluate ∧ p.beginEval.ltr.spacing = p.ltr.spacing ∧
    p.beginEval.sq = p.sq ∧ p.beginEval.msh = p.msh ∧ p.beginEval.dbm = p.dbm ∧ p.beginEval.sin = p.sin ∧
    p.beginEval.hre = p.hre ∧ p.beginEval.rtu = p.rtu ∧ p.beginEval.tst.poisoned = p.tst.poisoned ∧
    p.beginEval.tst.mode = p.tst.mode ∧ p.beginEval.tst.pattern = p.tst.pattern ∧ p.beginEval.tst.capture
    = p.tst.capture ∧ p.beginEval.tst.log = p.tst.log ∧ p.beginEval.tst.scrubPointer = p.tst.scrubPointer
    ∧ p.beginEval.tst.scrubTimer = p.tst.scrubTimer ∧ p.beginEval.tst.scrubPeriod = p.tst.scrubPeriod ∧
    p.beginEval.tst.current = p.tst.current ∧ p.beginEval.plp = p.plp ∧ p.beginEval.nco = p.nco ∧
    p.beginEval.agenda.blade = p.agenda.blade ∧ p.beginEval.agenda.deferral = p.agenda.deferral ∧
    p.beginEval.agenda.removed = p.agenda.removed ∧ p.beginEval.agenda.starved = p.agenda.starved ∧
    p.beginEval.agenda.returning = p.agenda.returning ∧ p.beginEval.agenda.period = p.agenda.period ∧
    p.beginEval.agenda.walk = p.agenda.walk ∧ p.beginEval.agenda.bus = p.agenda.bus ∧
    p.beginEval.agenda.port = p.agenda.port ∧ p.beginEval.agenda.held = p.agenda.held ∧
    p.beginEval.agenda.frames = p.agenda.frames ∧ p.beginEval.clock = p.clock ∧ p.beginEval.serial =
    p.serial ∧ p.beginEval.free = p.free := by
  unfold Part.beginEval
  (try dsimp only)
  (repeat' split) <;> simp

@[simp] theorem Part.triggerEval_keeps (p : Part) :
    p.triggerEval.fcu = p.fcu ∧ p.triggerEval.scr = p.scr ∧ p.triggerEval.ltr.tracks = p.ltr.tracks ∧
    p.triggerEval.ltr.zone = p.ltr.zone ∧ p.triggerEval.ltr.lastZone = p.ltr.lastZone ∧
    p.triggerEval.ltr.spacing = p.ltr.spacing ∧ p.triggerEval.sq = p.sq ∧ p.triggerEval.msh = p.msh ∧
    p.triggerEval.dbm = p.dbm ∧ p.triggerEval.sin = p.sin ∧ p.triggerEval.hre = p.hre ∧ p.triggerEval.rtu
    = p.rtu ∧ p.triggerEval.tst.poisoned = p.tst.poisoned ∧ p.triggerEval.tst.mode = p.tst.mode ∧
    p.triggerEval.tst.pattern = p.tst.pattern ∧ p.triggerEval.tst.capture = p.tst.capture ∧
    p.triggerEval.tst.log = p.tst.log ∧ p.triggerEval.tst.scrubPointer = p.tst.scrubPointer ∧
    p.triggerEval.tst.scrubTimer = p.tst.scrubTimer ∧ p.triggerEval.tst.scrubPeriod = p.tst.scrubPeriod ∧
    p.triggerEval.tst.current = p.tst.current ∧ p.triggerEval.plp = p.plp ∧ p.triggerEval.nco = p.nco ∧
    p.triggerEval.agenda.blade = p.agenda.blade ∧ p.triggerEval.agenda.deferral = p.agenda.deferral ∧
    p.triggerEval.agenda.removed = p.agenda.removed ∧ p.triggerEval.agenda.starved = p.agenda.starved ∧
    p.triggerEval.agenda.returning = p.agenda.returning ∧ p.triggerEval.agenda.period = p.agenda.period ∧
    p.triggerEval.agenda.walk = p.agenda.walk ∧ p.triggerEval.agenda.bus = p.agenda.bus ∧
    p.triggerEval.agenda.port = p.agenda.port ∧ p.triggerEval.agenda.held = p.agenda.held ∧
    p.triggerEval.agenda.frames = p.agenda.frames ∧ p.triggerEval.clock = p.clock ∧ p.triggerEval.serial =
    p.serial ∧ p.triggerEval.free = p.free := by
  unfold Part.triggerEval
  (try dsimp only)
  (repeat' split) <;> simp

@[simp] theorem Part.endEval_keeps (p : Part) :
    p.endEval.fcu = p.fcu ∧ p.endEval.scr = p.scr ∧ p.endEval.ltr.tracks = p.ltr.tracks ∧
    p.endEval.ltr.zone = p.ltr.zone ∧ p.endEval.ltr.lastZone = p.ltr.lastZone ∧ p.endEval.ltr.spacing =
    p.ltr.spacing ∧ p.endEval.sq = p.sq ∧ p.endEval.msh = p.msh ∧ p.endEval.dbm = p.dbm ∧ p.endEval.sin =
    p.sin ∧ p.endEval.hre = p.hre ∧ p.endEval.rtu = p.rtu ∧ p.endEval.tst.poisoned = p.tst.poisoned ∧
    p.endEval.tst.mode = p.tst.mode ∧ p.endEval.tst.pattern = p.tst.pattern ∧ p.endEval.tst.capture =
    p.tst.capture ∧ p.endEval.tst.log = p.tst.log ∧ p.endEval.tst.scrubPointer = p.tst.scrubPointer ∧
    p.endEval.tst.scrubTimer = p.tst.scrubTimer ∧ p.endEval.tst.scrubPeriod = p.tst.scrubPeriod ∧
    p.endEval.tst.current = p.tst.current ∧ p.endEval.plp = p.plp ∧ p.endEval.nco = p.nco ∧
    p.endEval.agenda.blade = p.agenda.blade ∧ p.endEval.agenda.deferral = p.agenda.deferral ∧
    p.endEval.agenda.removed = p.agenda.removed ∧ p.endEval.agenda.starved = p.agenda.starved ∧
    p.endEval.agenda.returning = p.agenda.returning ∧ p.endEval.agenda.period = p.agenda.period ∧
    p.endEval.agenda.walk = p.agenda.walk ∧ p.endEval.agenda.bus = p.agenda.bus ∧ p.endEval.agenda.port =
    p.agenda.port ∧ p.endEval.agenda.held = p.agenda.held ∧ p.endEval.agenda.frames = p.agenda.frames ∧
    p.endEval.clock = p.clock ∧ p.endEval.serial = p.serial ∧ p.endEval.free = p.free := by
  unfold Part.endEval
  (try dsimp only)
  (repeat' split) <;> simp

@[simp] theorem Part.announceZone_keeps (z : Nat) (p : Part) :
    (p.announceZone z).fcu.mode = p.fcu.mode ∧ (p.announceZone z).fcu.resume = p.fcu.resume ∧
    (p.announceZone z).fcu.stopCause = p.fcu.stopCause ∧ (p.announceZone z).fcu.hazardLevel =
    p.fcu.hazardLevel ∧ (p.announceZone z).fcu.permission = p.fcu.permission ∧ (p.announceZone
    z).fcu.keepSilent = p.fcu.keepSilent ∧ (p.announceZone z).fcu.keepTimer = p.fcu.keepTimer ∧
    (p.announceZone z).fcu.keepLimit = p.fcu.keepLimit ∧ (p.announceZone z).fcu.silentAction =
    p.fcu.silentAction ∧ (p.announceZone z).fcu.zoneBladeMax = p.fcu.zoneBladeMax ∧ (p.announceZone
    z).fcu.levelToSend = p.fcu.levelToSend ∧ (p.announceZone z).scr = p.scr ∧ (p.announceZone z).ltr =
    p.ltr ∧ (p.announceZone z).sq.refillArmed = p.sq.refillArmed ∧ (p.announceZone z).sq.starvedArmed =
    p.sq.starvedArmed ∧ (p.announceZone z).sq.refillMark = p.sq.refillMark ∧ (p.announceZone
    z).msh.previousLeft = p.msh.previousLeft ∧ (p.announceZone z).msh.previousRight = p.msh.previousRight
    ∧ (p.announceZone z).msh.errorMemory = p.msh.errorMemory ∧ (p.announceZone z).msh.source =
    p.msh.source ∧ (p.announceZone z).msh.credited = p.msh.credited ∧ (p.announceZone z).msh.wheels =
    p.msh.wheels ∧ (p.announceZone z).msh.odometer = p.msh.odometer ∧ (p.announceZone z).msh.odometerCarry
    = p.msh.odometerCarry ∧ (p.announceZone z).msh.progressCarry = p.msh.progressCarry ∧ (p.announceZone
    z).msh.periodTimer = p.msh.periodTimer ∧ (p.announceZone z).msh.computation = p.msh.computation ∧
    (p.announceZone z).msh.kilotick = p.msh.kilotick ∧ (p.announceZone z).msh.maneuverSpeed =
    p.msh.maneuverSpeed ∧ (p.announceZone z).dbm.bus = p.dbm.bus ∧
    (p.announceZone z).dbm.number = p.dbm.number ∧ (p.announceZone z).dbm.resetStops = p.dbm.resetStops ∧
    (p.announceZone z).dbm.responseLimit = p.dbm.responseLimit ∧ (p.announceZone z).dbm.holdLimit =
    p.dbm.holdLimit ∧ (p.announceZone z).sin = p.sin ∧ (p.announceZone z).hre = p.hre ∧ (p.announceZone
    z).rtu = p.rtu ∧ (p.announceZone z).tst = p.tst ∧ (p.announceZone z).plp.hunt = p.plp.hunt ∧
    (p.announceZone z).plp.rx = p.plp.rx ∧ (p.announceZone z).plp.op = p.plp.op ∧ (p.announceZone
    z).plp.restarting = p.plp.restarting ∧ (p.announceZone z).nco.urgentLevel = p.nco.urgentLevel ∧
    (p.announceZone z).agenda.returning = p.agenda.returning ∧ (p.announceZone z).agenda.period =
    p.agenda.period ∧ (p.announceZone z).agenda.walk = p.agenda.walk ∧ (p.announceZone z).agenda.store =
    p.agenda.store ∧ (p.announceZone z).agenda.port = p.agenda.port ∧ (p.announceZone z).agenda.held =
    p.agenda.held ∧ (p.announceZone z).agenda.frames = p.agenda.frames ∧ (p.announceZone z).clock =
    p.clock ∧ (p.announceZone z).serial = p.serial ∧ (p.announceZone z).free = p.free := by
  unfold Part.announceZone
  (try dsimp only)
  (repeat' split) <;> simp

@[simp] theorem Part.takeZone_keeps (z bladeMax : Nat) (p : Part) :
    (p.takeZone z bladeMax).fcu.mode = p.fcu.mode ∧ (p.takeZone z bladeMax).fcu.resume = p.fcu.resume ∧
    (p.takeZone z bladeMax).fcu.stopCause = p.fcu.stopCause ∧ (p.takeZone z bladeMax).fcu.hazardLevel =
    p.fcu.hazardLevel ∧ (p.takeZone z bladeMax).fcu.permission = p.fcu.permission ∧ (p.takeZone z
    bladeMax).fcu.keepSilent = p.fcu.keepSilent ∧ (p.takeZone z bladeMax).fcu.keepTimer = p.fcu.keepTimer
    ∧ (p.takeZone z bladeMax).fcu.keepLimit = p.fcu.keepLimit ∧ (p.takeZone z bladeMax).fcu.silentAction =
    p.fcu.silentAction ∧ (p.takeZone z bladeMax).fcu.levelToSend = p.fcu.levelToSend ∧ (p.takeZone z
    bladeMax).scr = p.scr ∧ (p.takeZone z bladeMax).ltr.tracks = p.ltr.tracks ∧ (p.takeZone z
    bladeMax).ltr.eval = p.ltr.eval ∧ (p.takeZone z bladeMax).ltr.reevaluate = p.ltr.reevaluate ∧
    (p.takeZone z bladeMax).ltr.spacing = p.ltr.spacing ∧ (p.takeZone z bladeMax).sq.refillArmed =
    p.sq.refillArmed ∧ (p.takeZone z bladeMax).sq.starvedArmed = p.sq.starvedArmed ∧ (p.takeZone z
    bladeMax).sq.refillMark = p.sq.refillMark ∧ (p.takeZone z bladeMax).msh.previousLeft =
    p.msh.previousLeft ∧ (p.takeZone z bladeMax).msh.previousRight = p.msh.previousRight ∧ (p.takeZone z
    bladeMax).msh.errorMemory = p.msh.errorMemory ∧ (p.takeZone z bladeMax).msh.source = p.msh.source ∧
    (p.takeZone z bladeMax).msh.credited = p.msh.credited ∧ (p.takeZone z bladeMax).msh.wheels =
    p.msh.wheels ∧ (p.takeZone z bladeMax).msh.odometer = p.msh.odometer ∧ (p.takeZone z
    bladeMax).msh.odometerCarry = p.msh.odometerCarry ∧ (p.takeZone z bladeMax).msh.progressCarry =
    p.msh.progressCarry ∧ (p.takeZone z bladeMax).msh.periodTimer = p.msh.periodTimer ∧ (p.takeZone z
    bladeMax).msh.computation = p.msh.computation ∧ (p.takeZone z bladeMax).msh.kilotick = p.msh.kilotick
    ∧ (p.takeZone z bladeMax).msh.maneuverSpeed = p.msh.maneuverSpeed
    ∧ (p.takeZone z bladeMax).dbm.bus = p.dbm.bus ∧ (p.takeZone z bladeMax).dbm.number = p.dbm.number ∧
    (p.takeZone z bladeMax).dbm.resetStops = p.dbm.resetStops ∧ (p.takeZone z bladeMax).dbm.responseLimit
    = p.dbm.responseLimit ∧ (p.takeZone z bladeMax).dbm.holdLimit = p.dbm.holdLimit ∧ (p.takeZone z
    bladeMax).sin = p.sin ∧ (p.takeZone z bladeMax).hre = p.hre ∧ (p.takeZone z bladeMax).rtu = p.rtu ∧
    (p.takeZone z bladeMax).tst = p.tst ∧ (p.takeZone z bladeMax).plp.hunt = p.plp.hunt ∧ (p.takeZone z
    bladeMax).plp.rx = p.plp.rx ∧ (p.takeZone z bladeMax).plp.op = p.plp.op ∧ (p.takeZone z
    bladeMax).plp.restarting = p.plp.restarting ∧ (p.takeZone z bladeMax).nco.urgentLevel =
    p.nco.urgentLevel ∧ (p.takeZone z bladeMax).agenda.period = p.agenda.period ∧ (p.takeZone z
    bladeMax).agenda.walk = p.agenda.walk ∧ (p.takeZone z bladeMax).agenda.store = p.agenda.store ∧
    (p.takeZone z bladeMax).agenda.port = p.agenda.port ∧ (p.takeZone z bladeMax).agenda.held =
    p.agenda.held ∧ (p.takeZone z bladeMax).agenda.frames = p.agenda.frames ∧ (p.takeZone z
    bladeMax).clock = p.clock ∧ (p.takeZone z bladeMax).serial = p.serial ∧ (p.takeZone z bladeMax).free =
    p.free := by
  unfold Part.takeZone
  (try dsimp only)
  (repeat' split) <;> simp

@[simp] theorem Part.loseZone_keeps (p : Part) :
    p.loseZone.fcu = p.fcu ∧ p.loseZone.scr = p.scr ∧ p.loseZone.ltr.tracks = p.ltr.tracks ∧
    p.loseZone.ltr.lastZone = p.ltr.lastZone ∧ p.loseZone.ltr.eval = p.ltr.eval ∧
    p.loseZone.ltr.reevaluate = p.ltr.reevaluate ∧ p.loseZone.ltr.spacing = p.ltr.spacing ∧ p.loseZone.sq
    = p.sq ∧ p.loseZone.msh = p.msh ∧ p.loseZone.dbm = p.dbm ∧ p.loseZone.sin = p.sin ∧ p.loseZone.hre =
    p.hre ∧ p.loseZone.rtu = p.rtu ∧ p.loseZone.tst = p.tst ∧ p.loseZone.plp.hunt = p.plp.hunt ∧
    p.loseZone.plp.rx = p.plp.rx ∧ p.loseZone.plp.op = p.plp.op ∧ p.loseZone.plp.restarting =
    p.plp.restarting ∧ p.loseZone.nco.urgentLevel = p.nco.urgentLevel ∧ p.loseZone.agenda.deferral =
    p.agenda.deferral ∧ p.loseZone.agenda.removed = p.agenda.removed ∧ p.loseZone.agenda.starved =
    p.agenda.starved ∧ p.loseZone.agenda.returning = p.agenda.returning ∧ p.loseZone.agenda.period =
    p.agenda.period ∧ p.loseZone.agenda.walk = p.agenda.walk ∧ p.loseZone.agenda.bus = p.agenda.bus ∧
    p.loseZone.agenda.store = p.agenda.store ∧ p.loseZone.agenda.port = p.agenda.port ∧
    p.loseZone.agenda.held = p.agenda.held ∧ p.loseZone.agenda.frames = p.agenda.frames ∧ p.loseZone.clock
    = p.clock ∧ p.loseZone.serial = p.serial ∧ p.loseZone.free = p.free := by
  unfold Part.loseZone
  (try dsimp only)
  (repeat' split) <;> simp

@[simp] theorem Part.foundZone_keeps (ev : ZoneEval) (z bladeMax : Nat) (p : Part) :
    (p.foundZone ev z bladeMax).fcu.mode = p.fcu.mode ∧ (p.foundZone ev z bladeMax).fcu.resume =
    p.fcu.resume ∧ (p.foundZone ev z bladeMax).fcu.stopCause = p.fcu.stopCause ∧ (p.foundZone ev z
    bladeMax).fcu.hazardLevel = p.fcu.hazardLevel ∧ (p.foundZone ev z bladeMax).fcu.permission =
    p.fcu.permission ∧ (p.foundZone ev z bladeMax).fcu.keepSilent = p.fcu.keepSilent ∧ (p.foundZone ev z
    bladeMax).fcu.keepTimer = p.fcu.keepTimer ∧ (p.foundZone ev z bladeMax).fcu.keepLimit =
    p.fcu.keepLimit ∧ (p.foundZone ev z bladeMax).fcu.silentAction = p.fcu.silentAction ∧ (p.foundZone ev
    z bladeMax).fcu.levelToSend = p.fcu.levelToSend ∧ (p.foundZone ev z bladeMax).scr = p.scr ∧
    (p.foundZone ev z bladeMax).ltr.tracks = p.ltr.tracks ∧ (p.foundZone ev z bladeMax).ltr.spacing =
    p.ltr.spacing ∧ (p.foundZone ev z bladeMax).sq.refillArmed = p.sq.refillArmed ∧ (p.foundZone ev z
    bladeMax).sq.starvedArmed = p.sq.starvedArmed ∧ (p.foundZone ev z bladeMax).sq.refillMark =
    p.sq.refillMark ∧ (p.foundZone ev z bladeMax).msh.previousLeft = p.msh.previousLeft ∧ (p.foundZone ev
    z bladeMax).msh.previousRight = p.msh.previousRight ∧ (p.foundZone ev z bladeMax).msh.errorMemory =
    p.msh.errorMemory ∧ (p.foundZone ev z bladeMax).msh.source = p.msh.source ∧ (p.foundZone ev z
    bladeMax).msh.credited = p.msh.credited ∧ (p.foundZone ev z bladeMax).msh.wheels = p.msh.wheels ∧
    (p.foundZone ev z bladeMax).msh.odometer = p.msh.odometer ∧ (p.foundZone ev z
    bladeMax).msh.odometerCarry = p.msh.odometerCarry ∧ (p.foundZone ev z bladeMax).msh.progressCarry =
    p.msh.progressCarry ∧ (p.foundZone ev z bladeMax).msh.periodTimer = p.msh.periodTimer ∧ (p.foundZone
    ev z bladeMax).msh.computation = p.msh.computation ∧ (p.foundZone ev z bladeMax).msh.kilotick =
    p.msh.kilotick ∧ (p.foundZone ev z bladeMax).msh.maneuverSpeed =
    p.msh.maneuverSpeed ∧ (p.foundZone ev z bladeMax).dbm.bus = p.dbm.bus ∧ (p.foundZone ev z
    bladeMax).dbm.number = p.dbm.number ∧ (p.foundZone ev z bladeMax).dbm.resetStops = p.dbm.resetStops ∧
    (p.foundZone ev z bladeMax).dbm.responseLimit = p.dbm.responseLimit ∧ (p.foundZone ev z
    bladeMax).dbm.holdLimit = p.dbm.holdLimit ∧ (p.foundZone ev z bladeMax).sin = p.sin ∧ (p.foundZone ev
    z bladeMax).hre = p.hre ∧ (p.foundZone ev z bladeMax).rtu = p.rtu ∧ (p.foundZone ev z
    bladeMax).tst.poisoned = p.tst.poisoned ∧ (p.foundZone ev z bladeMax).tst.mode = p.tst.mode ∧
    (p.foundZone ev z bladeMax).tst.pattern = p.tst.pattern ∧ (p.foundZone ev z bladeMax).tst.capture =
    p.tst.capture ∧ (p.foundZone ev z bladeMax).tst.log = p.tst.log ∧ (p.foundZone ev z
    bladeMax).tst.scrubPointer = p.tst.scrubPointer ∧ (p.foundZone ev z bladeMax).tst.scrubTimer =
    p.tst.scrubTimer ∧ (p.foundZone ev z bladeMax).tst.scrubPeriod = p.tst.scrubPeriod ∧ (p.foundZone ev z
    bladeMax).tst.current = p.tst.current ∧ (p.foundZone ev z bladeMax).plp.hunt = p.plp.hunt ∧
    (p.foundZone ev z bladeMax).plp.rx = p.plp.rx ∧ (p.foundZone ev z bladeMax).plp.op = p.plp.op ∧
    (p.foundZone ev z bladeMax).plp.restarting = p.plp.restarting ∧ (p.foundZone ev z
    bladeMax).nco.urgentLevel = p.nco.urgentLevel ∧ (p.foundZone ev z bladeMax).agenda.period =
    p.agenda.period ∧ (p.foundZone ev z bladeMax).agenda.walk = p.agenda.walk ∧ (p.foundZone ev z
    bladeMax).agenda.port = p.agenda.port ∧ (p.foundZone ev z bladeMax).agenda.held = p.agenda.held ∧
    (p.foundZone ev z bladeMax).agenda.frames = p.agenda.frames ∧ (p.foundZone ev z bladeMax).clock =
    p.clock ∧ (p.foundZone ev z bladeMax).serial = p.serial ∧ (p.foundZone ev z bladeMax).free = p.free :=
    by
  unfold Part.foundZone
  (try dsimp only)
  (repeat' split) <;> simp

@[simp] theorem Part.foundNoZone_keeps (p : Part) :
    p.foundNoZone.fcu = p.fcu ∧ p.foundNoZone.scr = p.scr ∧ p.foundNoZone.ltr.tracks = p.ltr.tracks ∧
    p.foundNoZone.ltr.lastZone = p.ltr.lastZone ∧ p.foundNoZone.ltr.spacing = p.ltr.spacing ∧
    p.foundNoZone.sq = p.sq ∧ p.foundNoZone.msh = p.msh ∧ p.foundNoZone.dbm = p.dbm ∧ p.foundNoZone.sin =
    p.sin ∧ p.foundNoZone.hre = p.hre ∧ p.foundNoZone.rtu = p.rtu ∧ p.foundNoZone.tst.poisoned =
    p.tst.poisoned ∧ p.foundNoZone.tst.mode = p.tst.mode ∧ p.foundNoZone.tst.pattern = p.tst.pattern ∧
    p.foundNoZone.tst.capture = p.tst.capture ∧ p.foundNoZone.tst.log = p.tst.log ∧
    p.foundNoZone.tst.scrubPointer = p.tst.scrubPointer ∧ p.foundNoZone.tst.scrubTimer = p.tst.scrubTimer
    ∧ p.foundNoZone.tst.scrubPeriod = p.tst.scrubPeriod ∧ p.foundNoZone.tst.current = p.tst.current ∧
    p.foundNoZone.plp.hunt = p.plp.hunt ∧ p.foundNoZone.plp.rx = p.plp.rx ∧ p.foundNoZone.plp.op =
    p.plp.op ∧ p.foundNoZone.plp.restarting = p.plp.restarting ∧ p.foundNoZone.nco.urgentLevel =
    p.nco.urgentLevel ∧ p.foundNoZone.agenda.deferral = p.agenda.deferral ∧ p.foundNoZone.agenda.removed =
    p.agenda.removed ∧ p.foundNoZone.agenda.starved = p.agenda.starved ∧ p.foundNoZone.agenda.returning =
    p.agenda.returning ∧ p.foundNoZone.agenda.period = p.agenda.period ∧ p.foundNoZone.agenda.walk =
    p.agenda.walk ∧ p.foundNoZone.agenda.bus = p.agenda.bus ∧ p.foundNoZone.agenda.port = p.agenda.port ∧
    p.foundNoZone.agenda.held = p.agenda.held ∧ p.foundNoZone.agenda.frames = p.agenda.frames ∧
    p.foundNoZone.clock = p.clock ∧ p.foundNoZone.serial = p.serial ∧ p.foundNoZone.free = p.free := by
  unfold Part.foundNoZone
  (try dsimp only)
  (repeat' split) <;> simp

@[simp] theorem Part.crossed_keeps (c : ZoneChange) (passage : Nat) (p : Part) :
    (p.crossed c passage).fcu.mode = p.fcu.mode ∧ (p.crossed c passage).fcu.resume = p.fcu.resume ∧
    (p.crossed c passage).fcu.stopCause = p.fcu.stopCause ∧ (p.crossed c passage).fcu.hazardLevel =
    p.fcu.hazardLevel ∧ (p.crossed c passage).fcu.permission = p.fcu.permission ∧ (p.crossed c
    passage).fcu.keepSilent = p.fcu.keepSilent ∧ (p.crossed c passage).fcu.keepTimer = p.fcu.keepTimer ∧
    (p.crossed c passage).fcu.keepLimit = p.fcu.keepLimit ∧ (p.crossed c passage).fcu.silentAction =
    p.fcu.silentAction ∧ (p.crossed c passage).fcu.levelToSend = p.fcu.levelToSend ∧ (p.crossed c
    passage).scr = p.scr ∧ (p.crossed c passage).ltr.tracks = p.ltr.tracks ∧ (p.crossed c
    passage).ltr.spacing = p.ltr.spacing ∧ (p.crossed c passage).sq.refillArmed = p.sq.refillArmed ∧
    (p.crossed c passage).sq.starvedArmed = p.sq.starvedArmed ∧ (p.crossed c passage).sq.refillMark =
    p.sq.refillMark ∧ (p.crossed c passage).msh.previousLeft = p.msh.previousLeft ∧ (p.crossed c
    passage).msh.previousRight = p.msh.previousRight ∧ (p.crossed c passage).msh.errorMemory =
    p.msh.errorMemory ∧ (p.crossed c passage).msh.source = p.msh.source ∧ (p.crossed c
    passage).msh.credited = p.msh.credited ∧ (p.crossed c passage).msh.wheels = p.msh.wheels ∧ (p.crossed
    c passage).msh.odometer = p.msh.odometer ∧ (p.crossed c passage).msh.odometerCarry =
    p.msh.odometerCarry ∧ (p.crossed c passage).msh.progressCarry = p.msh.progressCarry ∧ (p.crossed c
    passage).msh.periodTimer = p.msh.periodTimer ∧ (p.crossed c passage).msh.computation =
    p.msh.computation ∧ (p.crossed c passage).msh.kilotick = p.msh.kilotick ∧ (p.crossed c
    passage).msh.maneuverSpeed = p.msh.maneuverSpeed ∧ (p.crossed c
    passage).dbm.bus = p.dbm.bus ∧ (p.crossed c passage).dbm.number = p.dbm.number ∧ (p.crossed c
    passage).dbm.resetStops = p.dbm.resetStops ∧ (p.crossed c passage).dbm.responseLimit =
    p.dbm.responseLimit ∧ (p.crossed c passage).dbm.holdLimit = p.dbm.holdLimit ∧ (p.crossed c
    passage).sin = p.sin ∧ (p.crossed c passage).hre = p.hre ∧ (p.crossed c passage).rtu.stack =
    p.rtu.stack ∧ (p.crossed c passage).rtu.applying = p.rtu.applying ∧ (p.crossed c passage).rtu.planDue
    = p.rtu.planDue ∧ (p.crossed c passage).rtu.planning = p.rtu.planning ∧ (p.crossed c passage).rtu.leg
    = p.rtu.leg ∧ (p.crossed c passage).rtu.activity = p.rtu.activity ∧ (p.crossed c passage).rtu.params =
    p.rtu.params ∧ (p.crossed c passage).rtu.distance = p.rtu.distance ∧ (p.crossed c
    passage).rtu.finalApproach = p.rtu.finalApproach ∧ (p.crossed c passage).rtu.dockKey = p.rtu.dockKey ∧
    (p.crossed c passage).rtu.attempts = p.rtu.attempts ∧ (p.crossed c passage).rtu.settle = p.rtu.settle
    ∧ (p.crossed c passage).rtu.copies = p.rtu.copies ∧ (p.crossed c passage).tst.poisoned =
    p.tst.poisoned ∧ (p.crossed c passage).tst.mode = p.tst.mode ∧ (p.crossed c passage).tst.pattern =
    p.tst.pattern ∧ (p.crossed c passage).tst.capture = p.tst.capture ∧ (p.crossed c passage).tst.log =
    p.tst.log ∧ (p.crossed c passage).tst.scrubPointer = p.tst.scrubPointer ∧ (p.crossed c
    passage).tst.scrubTimer = p.tst.scrubTimer ∧ (p.crossed c passage).tst.scrubPeriod = p.tst.scrubPeriod
    ∧ (p.crossed c passage).tst.current = p.tst.current ∧ (p.crossed c passage).plp.hunt = p.plp.hunt ∧
    (p.crossed c passage).plp.rx = p.plp.rx ∧ (p.crossed c passage).plp.op = p.plp.op ∧ (p.crossed c
    passage).plp.restarting = p.plp.restarting ∧ (p.crossed c passage).nco.urgentLevel = p.nco.urgentLevel
    ∧ (p.crossed c passage).agenda.period = p.agenda.period ∧ (p.crossed c passage).agenda.walk =
    p.agenda.walk ∧ (p.crossed c passage).agenda.port = p.agenda.port ∧ (p.crossed c passage).agenda.held
    = p.agenda.held ∧ (p.crossed c passage).agenda.frames = p.agenda.frames ∧ (p.crossed c passage).clock
    = p.clock ∧ (p.crossed c passage).serial = p.serial ∧ (p.crossed c passage).free = p.free := by
  unfold Part.crossed
  (try dsimp only)
  (repeat' split) <;> simp

@[simp] theorem Part.strayed_keeps (c : ZoneChange) (p : Part) :
    (p.strayed c).fcu.mode = p.fcu.mode ∧ (p.strayed c).fcu.resume = p.fcu.resume ∧ (p.strayed
    c).fcu.stopCause = p.fcu.stopCause ∧ (p.strayed c).fcu.hazardLevel = p.fcu.hazardLevel ∧ (p.strayed
    c).fcu.permission = p.fcu.permission ∧ (p.strayed c).fcu.keepSilent = p.fcu.keepSilent ∧ (p.strayed
    c).fcu.keepTimer = p.fcu.keepTimer ∧ (p.strayed c).fcu.keepLimit = p.fcu.keepLimit ∧ (p.strayed
    c).fcu.silentAction = p.fcu.silentAction ∧ (p.strayed c).fcu.levelToSend = p.fcu.levelToSend ∧
    (p.strayed c).scr = p.scr ∧ (p.strayed c).ltr.tracks = p.ltr.tracks ∧ (p.strayed c).ltr.spacing =
    p.ltr.spacing ∧ (p.strayed c).sq.refillArmed = p.sq.refillArmed ∧ (p.strayed c).sq.starvedArmed =
    p.sq.starvedArmed ∧ (p.strayed c).sq.refillMark = p.sq.refillMark ∧ (p.strayed c).msh.previousLeft =
    p.msh.previousLeft ∧ (p.strayed c).msh.previousRight = p.msh.previousRight ∧ (p.strayed
    c).msh.errorMemory = p.msh.errorMemory ∧ (p.strayed c).msh.source = p.msh.source ∧ (p.strayed
    c).msh.credited = p.msh.credited ∧ (p.strayed c).msh.wheels = p.msh.wheels ∧ (p.strayed
    c).msh.odometer = p.msh.odometer ∧ (p.strayed c).msh.odometerCarry = p.msh.odometerCarry ∧ (p.strayed
    c).msh.progressCarry = p.msh.progressCarry ∧ (p.strayed c).msh.periodTimer = p.msh.periodTimer ∧
    (p.strayed c).msh.computation = p.msh.computation ∧ (p.strayed c).msh.kilotick = p.msh.kilotick ∧
    (p.strayed c).msh.maneuverSpeed = p.msh.maneuverSpeed ∧
    (p.strayed c).dbm.bus = p.dbm.bus ∧ (p.strayed c).dbm.number = p.dbm.number ∧ (p.strayed
    c).dbm.resetStops = p.dbm.resetStops ∧ (p.strayed c).dbm.responseLimit = p.dbm.responseLimit ∧
    (p.strayed c).dbm.holdLimit = p.dbm.holdLimit ∧ (p.strayed c).sin = p.sin ∧ (p.strayed c).hre.walk =
    p.hre.walk ∧ (p.strayed c).hre.active = p.hre.active ∧ (p.strayed c).hre.pending = p.hre.pending ∧
    (p.strayed c).rtu = p.rtu ∧ (p.strayed c).tst.poisoned = p.tst.poisoned ∧ (p.strayed c).tst.mode =
    p.tst.mode ∧ (p.strayed c).tst.pattern = p.tst.pattern ∧ (p.strayed c).tst.capture = p.tst.capture ∧
    (p.strayed c).tst.log = p.tst.log ∧ (p.strayed c).tst.scrubPointer = p.tst.scrubPointer ∧ (p.strayed
    c).tst.scrubTimer = p.tst.scrubTimer ∧ (p.strayed c).tst.scrubPeriod = p.tst.scrubPeriod ∧ (p.strayed
    c).tst.current = p.tst.current ∧ (p.strayed c).plp.hunt = p.plp.hunt ∧ (p.strayed c).plp.rx = p.plp.rx
    ∧ (p.strayed c).plp.op = p.plp.op ∧ (p.strayed c).plp.restarting = p.plp.restarting ∧ (p.strayed
    c).nco.urgentLevel = p.nco.urgentLevel ∧ (p.strayed c).agenda.period = p.agenda.period ∧ (p.strayed
    c).agenda.port = p.agenda.port ∧ (p.strayed c).agenda.held = p.agenda.held ∧ (p.strayed
    c).agenda.frames = p.agenda.frames ∧ (p.strayed c).clock = p.clock ∧ (p.strayed c).serial = p.serial ∧
    (p.strayed c).free = p.free := by
  unfold Part.strayed
  (try dsimp only)
  (repeat' split) <;> simp

@[simp] theorem Part.evalRead_keeps (result : Option (List Int)) (p : Part) :
    (p.evalRead result).fcu.mode = p.fcu.mode ∧ (p.evalRead result).fcu.resume = p.fcu.resume ∧
    (p.evalRead result).fcu.stopCause = p.fcu.stopCause ∧ (p.evalRead result).fcu.hazardLevel =
    p.fcu.hazardLevel ∧ (p.evalRead result).fcu.permission = p.fcu.permission ∧ (p.evalRead
    result).fcu.keepSilent = p.fcu.keepSilent ∧ (p.evalRead result).fcu.keepTimer = p.fcu.keepTimer ∧
    (p.evalRead result).fcu.keepLimit = p.fcu.keepLimit ∧ (p.evalRead result).fcu.silentAction =
    p.fcu.silentAction ∧ (p.evalRead result).fcu.levelToSend = p.fcu.levelToSend ∧ (p.evalRead result).scr
    = p.scr ∧ (p.evalRead result).ltr.tracks = p.ltr.tracks ∧ (p.evalRead result).ltr.spacing =
    p.ltr.spacing ∧ (p.evalRead result).sq.refillArmed = p.sq.refillArmed ∧ (p.evalRead
    result).sq.starvedArmed = p.sq.starvedArmed ∧ (p.evalRead result).sq.refillMark = p.sq.refillMark ∧
    (p.evalRead result).msh.previousLeft = p.msh.previousLeft ∧ (p.evalRead result).msh.previousRight =
    p.msh.previousRight ∧ (p.evalRead result).msh.errorMemory = p.msh.errorMemory ∧ (p.evalRead
    result).msh.source = p.msh.source ∧ (p.evalRead result).msh.credited = p.msh.credited ∧ (p.evalRead
    result).msh.wheels = p.msh.wheels ∧ (p.evalRead result).msh.odometer = p.msh.odometer ∧ (p.evalRead
    result).msh.odometerCarry = p.msh.odometerCarry ∧ (p.evalRead result).msh.progressCarry =
    p.msh.progressCarry ∧ (p.evalRead result).msh.periodTimer = p.msh.periodTimer ∧ (p.evalRead
    result).msh.computation = p.msh.computation ∧ (p.evalRead result).msh.kilotick = p.msh.kilotick ∧
    (p.evalRead result).msh.maneuverSpeed = p.msh.maneuverSpeed ∧
    (p.evalRead result).dbm.bus = p.dbm.bus ∧ (p.evalRead result).dbm.number = p.dbm.number ∧ (p.evalRead
    result).dbm.resetStops = p.dbm.resetStops ∧ (p.evalRead result).dbm.responseLimit =
    p.dbm.responseLimit ∧ (p.evalRead result).dbm.holdLimit = p.dbm.holdLimit ∧ (p.evalRead result).sin =
    p.sin ∧ (p.evalRead result).hre.walk = p.hre.walk ∧ (p.evalRead result).hre.active = p.hre.active ∧
    (p.evalRead result).hre.pending = p.hre.pending ∧ (p.evalRead result).rtu.stack = p.rtu.stack ∧
    (p.evalRead result).rtu.applying = p.rtu.applying ∧ (p.evalRead result).rtu.planDue = p.rtu.planDue ∧
    (p.evalRead result).rtu.planning = p.rtu.planning ∧ (p.evalRead result).rtu.leg = p.rtu.leg ∧
    (p.evalRead result).rtu.activity = p.rtu.activity ∧ (p.evalRead result).rtu.params = p.rtu.params ∧
    (p.evalRead result).rtu.distance = p.rtu.distance ∧ (p.evalRead result).rtu.finalApproach =
    p.rtu.finalApproach ∧ (p.evalRead result).rtu.dockKey = p.rtu.dockKey ∧ (p.evalRead
    result).rtu.attempts = p.rtu.attempts ∧ (p.evalRead result).rtu.settle = p.rtu.settle ∧ (p.evalRead
    result).rtu.copies = p.rtu.copies ∧ (p.evalRead result).tst.poisoned = p.tst.poisoned ∧ (p.evalRead
    result).tst.mode = p.tst.mode ∧ (p.evalRead result).tst.pattern = p.tst.pattern ∧ (p.evalRead
    result).tst.capture = p.tst.capture ∧ (p.evalRead result).tst.log = p.tst.log ∧ (p.evalRead
    result).tst.scrubPointer = p.tst.scrubPointer ∧ (p.evalRead result).tst.scrubTimer = p.tst.scrubTimer
    ∧ (p.evalRead result).tst.scrubPeriod = p.tst.scrubPeriod ∧ (p.evalRead result).tst.current =
    p.tst.current ∧ (p.evalRead result).plp.hunt = p.plp.hunt ∧ (p.evalRead result).plp.rx = p.plp.rx ∧
    (p.evalRead result).plp.op = p.plp.op ∧ (p.evalRead result).plp.restarting = p.plp.restarting ∧
    (p.evalRead result).nco.urgentLevel = p.nco.urgentLevel ∧ (p.evalRead result).agenda.period =
    p.agenda.period ∧ (p.evalRead result).agenda.port = p.agenda.port ∧ (p.evalRead result).agenda.held =
    p.agenda.held ∧ (p.evalRead result).agenda.frames = p.agenda.frames ∧ (p.evalRead result).clock =
    p.clock ∧ (p.evalRead result).serial = p.serial ∧ (p.evalRead result).free = p.free := by
  unfold Part.evalRead
  (try dsimp only)
  (repeat' split) <;> simp

@[simp] theorem Part.announceCross_keeps (awaited : Option Nat) (k : Nat) (p : Part) :
    (p.announceCross awaited k).fcu.mode = p.fcu.mode ∧ (p.announceCross awaited k).fcu.resume =
    p.fcu.resume ∧ (p.announceCross awaited k).fcu.stopCause = p.fcu.stopCause ∧ (p.announceCross awaited
    k).fcu.hazardLevel = p.fcu.hazardLevel ∧ (p.announceCross awaited k).fcu.permission = p.fcu.permission
    ∧ (p.announceCross awaited k).fcu.keepSilent = p.fcu.keepSilent ∧ (p.announceCross awaited
    k).fcu.keepTimer = p.fcu.keepTimer ∧ (p.announceCross awaited k).fcu.keepLimit = p.fcu.keepLimit ∧
    (p.announceCross awaited k).fcu.silentAction = p.fcu.silentAction ∧ (p.announceCross awaited
    k).fcu.zoneBladeMax = p.fcu.zoneBladeMax ∧ (p.announceCross awaited k).fcu.levelToSend =
    p.fcu.levelToSend ∧ (p.announceCross awaited k).scr = p.scr ∧ (p.announceCross awaited k).ltr = p.ltr
    ∧ (p.announceCross awaited k).sq.refillArmed = p.sq.refillArmed ∧ (p.announceCross awaited
    k).sq.starvedArmed = p.sq.starvedArmed ∧ (p.announceCross awaited k).sq.refillMark = p.sq.refillMark ∧
    (p.announceCross awaited k).msh.previousLeft = p.msh.previousLeft ∧ (p.announceCross awaited
    k).msh.previousRight = p.msh.previousRight ∧ (p.announceCross awaited k).msh.errorMemory =
    p.msh.errorMemory ∧ (p.announceCross awaited k).msh.source = p.msh.source ∧ (p.announceCross awaited
    k).msh.credited = p.msh.credited ∧ (p.announceCross awaited k).msh.wheels = p.msh.wheels ∧
    (p.announceCross awaited k).msh.odometer = p.msh.odometer ∧ (p.announceCross awaited
    k).msh.odometerCarry = p.msh.odometerCarry ∧ (p.announceCross awaited k).msh.progressCarry =
    p.msh.progressCarry ∧ (p.announceCross awaited k).msh.periodTimer = p.msh.periodTimer ∧
    (p.announceCross awaited k).msh.computation = p.msh.computation ∧ (p.announceCross awaited
    k).msh.kilotick = p.msh.kilotick ∧ (p.announceCross awaited
    k).msh.maneuverSpeed = p.msh.maneuverSpeed ∧ (p.announceCross awaited k).dbm.bus = p.dbm.bus ∧
    (p.announceCross
    awaited k).dbm.number = p.dbm.number ∧ (p.announceCross awaited k).dbm.resetStops = p.dbm.resetStops ∧
    (p.announceCross awaited k).dbm.responseLimit = p.dbm.responseLimit ∧ (p.announceCross awaited
    k).dbm.holdLimit = p.dbm.holdLimit ∧ (p.announceCross awaited k).sin = p.sin ∧ (p.announceCross
    awaited k).hre = p.hre ∧ (p.announceCross awaited k).rtu.stack = p.rtu.stack ∧ (p.announceCross
    awaited k).rtu.overflow = p.rtu.overflow ∧ (p.announceCross awaited k).rtu.crossings = p.rtu.crossings
    ∧ (p.announceCross awaited k).rtu.applying = p.rtu.applying ∧ (p.announceCross awaited k).rtu.planDue
    = p.rtu.planDue ∧ (p.announceCross awaited k).rtu.planning = p.rtu.planning ∧ (p.announceCross awaited
    k).rtu.activity = p.rtu.activity ∧ (p.announceCross awaited k).rtu.params = p.rtu.params ∧
    (p.announceCross awaited k).rtu.distance = p.rtu.distance ∧ (p.announceCross awaited
    k).rtu.finalApproach = p.rtu.finalApproach ∧ (p.announceCross awaited k).rtu.dockKey = p.rtu.dockKey ∧
    (p.announceCross awaited k).rtu.attempts = p.rtu.attempts ∧ (p.announceCross awaited k).rtu.settle =
    p.rtu.settle ∧ (p.announceCross awaited k).rtu.copies = p.rtu.copies ∧ (p.announceCross awaited k).tst
    = p.tst ∧ (p.announceCross awaited k).plp.hunt = p.plp.hunt ∧ (p.announceCross awaited k).plp.rx =
    p.plp.rx ∧ (p.announceCross awaited k).plp.op = p.plp.op ∧ (p.announceCross awaited k).plp.restarting
    = p.plp.restarting ∧ (p.announceCross awaited k).nco.urgentLevel = p.nco.urgentLevel ∧
    (p.announceCross awaited k).agenda.returning = p.agenda.returning ∧ (p.announceCross awaited
    k).agenda.period = p.agenda.period ∧ (p.announceCross awaited k).agenda.walk = p.agenda.walk ∧
    (p.announceCross awaited k).agenda.store = p.agenda.store ∧ (p.announceCross awaited k).agenda.port =
    p.agenda.port ∧ (p.announceCross awaited k).agenda.held = p.agenda.held ∧ (p.announceCross awaited
    k).agenda.frames = p.agenda.frames ∧ (p.announceCross awaited k).clock = p.clock ∧ (p.announceCross
    awaited k).serial = p.serial ∧ (p.announceCross awaited k).free = p.free := by
  unfold Part.announceCross
  (try dsimp only)
  (repeat' split) <;> simp

@[simp] theorem Part.handOut_keeps (awaited : Option Nat) (number : Byte) (i : Fin 8) (before after :
LoopTrack) (p : Part) :
    (p.handOut awaited number i before after).fcu.mode = p.fcu.mode ∧ (p.handOut awaited number i before
    after).fcu.resume = p.fcu.resume ∧ (p.handOut awaited number i before after).fcu.stopCause =
    p.fcu.stopCause ∧ (p.handOut awaited number i before after).fcu.hazardLevel = p.fcu.hazardLevel ∧
    (p.handOut awaited number i before after).fcu.permission = p.fcu.permission ∧ (p.handOut awaited
    number i before after).fcu.keepSilent = p.fcu.keepSilent ∧ (p.handOut awaited number i before
    after).fcu.keepTimer = p.fcu.keepTimer ∧ (p.handOut awaited number i before after).fcu.keepLimit =
    p.fcu.keepLimit ∧ (p.handOut awaited number i before after).fcu.silentAction = p.fcu.silentAction ∧
    (p.handOut awaited number i before after).fcu.zoneBladeMax = p.fcu.zoneBladeMax ∧ (p.handOut awaited
    number i before after).fcu.levelToSend = p.fcu.levelToSend ∧ (p.handOut awaited number i before
    after).scr = p.scr ∧ (p.handOut awaited number i before after).ltr = p.ltr ∧ (p.handOut awaited number
    i before after).sq.refillArmed = p.sq.refillArmed ∧ (p.handOut awaited number i before
    after).sq.starvedArmed = p.sq.starvedArmed ∧ (p.handOut awaited number i before after).sq.refillMark =
    p.sq.refillMark ∧ (p.handOut awaited number i before after).msh.previousLeft = p.msh.previousLeft ∧
    (p.handOut awaited number i before after).msh.previousRight = p.msh.previousRight ∧ (p.handOut awaited
    number i before after).msh.errorMemory = p.msh.errorMemory ∧ (p.handOut awaited number i before
    after).msh.source = p.msh.source ∧ (p.handOut awaited number i before after).msh.credited =
    p.msh.credited ∧ (p.handOut awaited number i before after).msh.wheels = p.msh.wheels ∧ (p.handOut
    awaited number i before after).msh.odometer = p.msh.odometer ∧ (p.handOut awaited number i before
    after).msh.odometerCarry = p.msh.odometerCarry ∧ (p.handOut awaited number i before
    after).msh.progressCarry = p.msh.progressCarry ∧ (p.handOut awaited number i before
    after).msh.periodTimer = p.msh.periodTimer ∧ (p.handOut awaited number i before after).msh.computation
    = p.msh.computation ∧ (p.handOut awaited number i before after).msh.kilotick = p.msh.kilotick ∧
    (p.handOut awaited number i before after).msh.maneuverSpeed = p.msh.maneuverSpeed ∧
    (p.handOut awaited number i before after).dbm.bus = p.dbm.bus ∧ (p.handOut awaited number i before
    after).dbm.number = p.dbm.number ∧ (p.handOut awaited number i before after).dbm.resetStops =
    p.dbm.resetStops ∧ (p.handOut awaited number i before after).dbm.responseLimit = p.dbm.responseLimit ∧
    (p.handOut awaited number i before after).dbm.holdLimit = p.dbm.holdLimit ∧ (p.handOut awaited number
    i before after).sin = p.sin ∧ (p.handOut awaited number i before after).hre.walk = p.hre.walk ∧
    (p.handOut awaited number i before after).hre.active = p.hre.active ∧ (p.handOut awaited number i
    before after).hre.pending = p.hre.pending ∧ (p.handOut awaited number i before after).rtu.stack =
    p.rtu.stack ∧ (p.handOut awaited number i before after).rtu.overflow = p.rtu.overflow ∧ (p.handOut
    awaited number i before after).rtu.crossings = p.rtu.crossings ∧ (p.handOut awaited number i before
    after).rtu.applying = p.rtu.applying ∧ (p.handOut awaited number i before after).rtu.planDue =
    p.rtu.planDue ∧ (p.handOut awaited number i before after).rtu.planning = p.rtu.planning ∧ (p.handOut
    awaited number i before after).rtu.activity = p.rtu.activity ∧ (p.handOut awaited number i before
    after).rtu.params = p.rtu.params ∧ (p.handOut awaited number i before after).rtu.distance =
    p.rtu.distance ∧ (p.handOut awaited number i before after).rtu.finalApproach = p.rtu.finalApproach ∧
    (p.handOut awaited number i before after).rtu.dockKey = p.rtu.dockKey ∧ (p.handOut awaited number i
    before after).rtu.attempts = p.rtu.attempts ∧ (p.handOut awaited number i before after).rtu.settle =
    p.rtu.settle ∧ (p.handOut awaited number i before after).rtu.copies = p.rtu.copies ∧ (p.handOut
    awaited number i before after).tst = p.tst ∧ (p.handOut awaited number i before after).plp.hunt =
    p.plp.hunt ∧ (p.handOut awaited number i before after).plp.rx = p.plp.rx ∧ (p.handOut awaited number i
    before after).plp.op = p.plp.op ∧ (p.handOut awaited number i before after).plp.restarting =
    p.plp.restarting ∧ (p.handOut awaited number i before after).nco.urgentLevel = p.nco.urgentLevel ∧
    (p.handOut awaited number i before after).agenda.returning = p.agenda.returning ∧ (p.handOut awaited
    number i before after).agenda.period = p.agenda.period ∧ (p.handOut awaited number i before
    after).agenda.store = p.agenda.store ∧ (p.handOut awaited number i before after).agenda.port =
    p.agenda.port ∧ (p.handOut awaited number i before after).agenda.held = p.agenda.held ∧ (p.handOut
    awaited number i before after).agenda.frames = p.agenda.frames ∧ (p.handOut awaited number i before
    after).clock = p.clock ∧ (p.handOut awaited number i before after).serial = p.serial ∧ (p.handOut
    awaited number i before after).free = p.free := by
  unfold Part.handOut
  (try dsimp only)
  (repeat' split) <;> simp

@[simp] theorem Part.handOutAll_keeps (awaited : Option Nat) (number : Byte) (before : Eight LoopTrack)
(x0 : List (Fin 8)) (p : Part) :
    (p.handOutAll awaited number before x0).fcu.mode = p.fcu.mode ∧ (p.handOutAll awaited number before
    x0).fcu.resume = p.fcu.resume ∧ (p.handOutAll awaited number before x0).fcu.stopCause =
    p.fcu.stopCause ∧ (p.handOutAll awaited number before x0).fcu.hazardLevel = p.fcu.hazardLevel ∧
    (p.handOutAll awaited number before x0).fcu.permission = p.fcu.permission ∧ (p.handOutAll awaited
    number before x0).fcu.keepSilent = p.fcu.keepSilent ∧ (p.handOutAll awaited number before
    x0).fcu.keepTimer = p.fcu.keepTimer ∧ (p.handOutAll awaited number before x0).fcu.keepLimit =
    p.fcu.keepLimit ∧ (p.handOutAll awaited number before x0).fcu.silentAction = p.fcu.silentAction ∧
    (p.handOutAll awaited number before x0).fcu.zoneBladeMax = p.fcu.zoneBladeMax ∧ (p.handOutAll awaited
    number before x0).fcu.levelToSend = p.fcu.levelToSend ∧ (p.handOutAll awaited number before x0).scr =
    p.scr ∧ (p.handOutAll awaited number before x0).ltr = p.ltr ∧ (p.handOutAll awaited number before
    x0).sq.refillArmed = p.sq.refillArmed ∧ (p.handOutAll awaited number before x0).sq.starvedArmed =
    p.sq.starvedArmed ∧ (p.handOutAll awaited number before x0).sq.refillMark = p.sq.refillMark ∧
    (p.handOutAll awaited number before x0).msh.previousLeft = p.msh.previousLeft ∧ (p.handOutAll awaited
    number before x0).msh.previousRight = p.msh.previousRight ∧ (p.handOutAll awaited number before
    x0).msh.errorMemory = p.msh.errorMemory ∧ (p.handOutAll awaited number before x0).msh.source =
    p.msh.source ∧ (p.handOutAll awaited number before x0).msh.credited = p.msh.credited ∧ (p.handOutAll
    awaited number before x0).msh.wheels = p.msh.wheels ∧ (p.handOutAll awaited number before
    x0).msh.odometer = p.msh.odometer ∧ (p.handOutAll awaited number before x0).msh.odometerCarry =
    p.msh.odometerCarry ∧ (p.handOutAll awaited number before x0).msh.progressCarry = p.msh.progressCarry
    ∧ (p.handOutAll awaited number before x0).msh.periodTimer = p.msh.periodTimer ∧ (p.handOutAll awaited
    number before x0).msh.computation = p.msh.computation ∧ (p.handOutAll awaited number before
    x0).msh.kilotick = p.msh.kilotick ∧ (p.handOutAll awaited number before
    x0).msh.maneuverSpeed = p.msh.maneuverSpeed ∧ (p.handOutAll awaited number before x0).dbm.bus =
    p.dbm.bus ∧
    (p.handOutAll awaited number before x0).dbm.number = p.dbm.number ∧ (p.handOutAll awaited number
    before x0).dbm.resetStops = p.dbm.resetStops ∧ (p.handOutAll awaited number before
    x0).dbm.responseLimit = p.dbm.responseLimit ∧ (p.handOutAll awaited number before x0).dbm.holdLimit =
    p.dbm.holdLimit ∧ (p.handOutAll awaited number before x0).sin = p.sin ∧ (p.handOutAll awaited number
    before x0).hre.walk = p.hre.walk ∧ (p.handOutAll awaited number before x0).hre.active = p.hre.active ∧
    (p.handOutAll awaited number before x0).hre.pending = p.hre.pending ∧ (p.handOutAll awaited number
    before x0).rtu.stack = p.rtu.stack ∧ (p.handOutAll awaited number before x0).rtu.overflow =
    p.rtu.overflow ∧ (p.handOutAll awaited number before x0).rtu.crossings = p.rtu.crossings ∧
    (p.handOutAll awaited number before x0).rtu.applying = p.rtu.applying ∧ (p.handOutAll awaited number
    before x0).rtu.planDue = p.rtu.planDue ∧ (p.handOutAll awaited number before x0).rtu.planning =
    p.rtu.planning ∧ (p.handOutAll awaited number before x0).rtu.activity = p.rtu.activity ∧ (p.handOutAll
    awaited number before x0).rtu.params = p.rtu.params ∧ (p.handOutAll awaited number before
    x0).rtu.distance = p.rtu.distance ∧ (p.handOutAll awaited number before x0).rtu.finalApproach =
    p.rtu.finalApproach ∧ (p.handOutAll awaited number before x0).rtu.dockKey = p.rtu.dockKey ∧
    (p.handOutAll awaited number before x0).rtu.attempts = p.rtu.attempts ∧ (p.handOutAll awaited number
    before x0).rtu.settle = p.rtu.settle ∧ (p.handOutAll awaited number before x0).rtu.copies =
    p.rtu.copies ∧ (p.handOutAll awaited number before x0).tst = p.tst ∧ (p.handOutAll awaited number
    before x0).plp.hunt = p.plp.hunt ∧ (p.handOutAll awaited number before x0).plp.rx = p.plp.rx ∧
    (p.handOutAll awaited number before x0).plp.op = p.plp.op ∧ (p.handOutAll awaited number before
    x0).plp.restarting = p.plp.restarting ∧ (p.handOutAll awaited number before x0).nco.urgentLevel =
    p.nco.urgentLevel ∧ (p.handOutAll awaited number before x0).agenda.returning = p.agenda.returning ∧
    (p.handOutAll awaited number before x0).agenda.period = p.agenda.period ∧ (p.handOutAll awaited number
    before x0).agenda.store = p.agenda.store ∧ (p.handOutAll awaited number before x0).agenda.port =
    p.agenda.port ∧ (p.handOutAll awaited number before x0).agenda.held = p.agenda.held ∧ (p.handOutAll
    awaited number before x0).agenda.frames = p.agenda.frames ∧ (p.handOutAll awaited number before
    x0).clock = p.clock ∧ (p.handOutAll awaited number before x0).serial = p.serial ∧ (p.handOutAll
    awaited number before x0).free = p.free := by
  induction x0 generalizing p with
  | nil => simp [Part.handOutAll]
  | cons c cs ih => simp only [Part.handOutAll]; (repeat' split) <;> simp_all

@[simp] theorem Part.frameDone_keeps (f : CoilFrame) (reads : List LoopRead) (p : Part) :
    (p.frameDone f reads).fcu.mode = p.fcu.mode ∧ (p.frameDone f reads).fcu.resume = p.fcu.resume ∧
    (p.frameDone f reads).fcu.stopCause = p.fcu.stopCause ∧ (p.frameDone f reads).fcu.hazardLevel =
    p.fcu.hazardLevel ∧ (p.frameDone f reads).fcu.permission = p.fcu.permission ∧ (p.frameDone f
    reads).fcu.keepSilent = p.fcu.keepSilent ∧ (p.frameDone f reads).fcu.keepTimer = p.fcu.keepTimer ∧
    (p.frameDone f reads).fcu.keepLimit = p.fcu.keepLimit ∧ (p.frameDone f reads).fcu.silentAction =
    p.fcu.silentAction ∧ (p.frameDone f reads).fcu.zoneBladeMax = p.fcu.zoneBladeMax ∧ (p.frameDone f
    reads).fcu.levelToSend = p.fcu.levelToSend ∧ (p.frameDone f reads).ltr.zone = p.ltr.zone ∧
    (p.frameDone f reads).ltr.lastZone = p.ltr.lastZone ∧ (p.frameDone f reads).ltr.spacing =
    p.ltr.spacing ∧ (p.frameDone f reads).sq.refillArmed = p.sq.refillArmed ∧ (p.frameDone f
    reads).sq.starvedArmed = p.sq.starvedArmed ∧ (p.frameDone f reads).sq.refillMark = p.sq.refillMark ∧
    (p.frameDone f reads).msh.previousLeft = p.msh.previousLeft ∧ (p.frameDone f reads).msh.previousRight
    = p.msh.previousRight ∧ (p.frameDone f reads).msh.errorMemory = p.msh.errorMemory ∧ (p.frameDone f
    reads).msh.source = p.msh.source ∧ (p.frameDone f reads).msh.credited = p.msh.credited ∧ (p.frameDone
    f reads).msh.wheels = p.msh.wheels ∧ (p.frameDone f reads).msh.odometer = p.msh.odometer ∧
    (p.frameDone f reads).msh.odometerCarry = p.msh.odometerCarry ∧ (p.frameDone f
    reads).msh.progressCarry = p.msh.progressCarry ∧ (p.frameDone f reads).msh.periodTimer =
    p.msh.periodTimer ∧ (p.frameDone f reads).msh.computation = p.msh.computation ∧ (p.frameDone f
    reads).msh.kilotick = p.msh.kilotick ∧ (p.frameDone f
    reads).msh.maneuverSpeed = p.msh.maneuverSpeed ∧ (p.frameDone f reads).dbm.bus = p.dbm.bus ∧
    (p.frameDone f
    reads).dbm.number = p.dbm.number ∧ (p.frameDone f reads).dbm.resetStops = p.dbm.resetStops ∧
    (p.frameDone f reads).dbm.responseLimit = p.dbm.responseLimit ∧ (p.frameDone f reads).dbm.holdLimit =
    p.dbm.holdLimit ∧ (p.frameDone f reads).sin = p.sin ∧ (p.frameDone f reads).hre.walk = p.hre.walk ∧
    (p.frameDone f reads).hre.active = p.hre.active ∧ (p.frameDone f reads).hre.pending = p.hre.pending ∧
    (p.frameDone f reads).rtu.stack = p.rtu.stack ∧ (p.frameDone f reads).rtu.overflow = p.rtu.overflow ∧
    (p.frameDone f reads).rtu.crossings = p.rtu.crossings ∧ (p.frameDone f reads).rtu.applying =
    p.rtu.applying ∧ (p.frameDone f reads).rtu.planDue = p.rtu.planDue ∧ (p.frameDone f
    reads).rtu.planning = p.rtu.planning ∧ (p.frameDone f reads).rtu.activity = p.rtu.activity ∧
    (p.frameDone f reads).rtu.params = p.rtu.params ∧ (p.frameDone f reads).rtu.distance = p.rtu.distance
    ∧ (p.frameDone f reads).rtu.finalApproach = p.rtu.finalApproach ∧ (p.frameDone f reads).rtu.dockKey =
    p.rtu.dockKey ∧ (p.frameDone f reads).rtu.attempts = p.rtu.attempts ∧ (p.frameDone f reads).rtu.settle
    = p.rtu.settle ∧ (p.frameDone f reads).rtu.copies = p.rtu.copies ∧ (p.frameDone f reads).tst.poisoned
    = p.tst.poisoned ∧ (p.frameDone f reads).tst.mode = p.tst.mode ∧ (p.frameDone f reads).tst.pattern =
    p.tst.pattern ∧ (p.frameDone f reads).tst.capture = p.tst.capture ∧ (p.frameDone f reads).tst.log =
    p.tst.log ∧ (p.frameDone f reads).tst.scrubPointer = p.tst.scrubPointer ∧ (p.frameDone f
    reads).tst.scrubTimer = p.tst.scrubTimer ∧ (p.frameDone f reads).tst.scrubPeriod = p.tst.scrubPeriod ∧
    (p.frameDone f reads).tst.current = p.tst.current ∧ (p.frameDone f reads).plp.hunt = p.plp.hunt ∧
    (p.frameDone f reads).plp.rx = p.plp.rx ∧ (p.frameDone f reads).plp.op = p.plp.op ∧ (p.frameDone f
    reads).plp.restarting = p.plp.restarting ∧ (p.frameDone f reads).nco.urgentLevel = p.nco.urgentLevel ∧
    (p.frameDone f reads).agenda.returning = p.agenda.returning ∧ (p.frameDone f reads).agenda.period =
    p.agenda.period ∧ (p.frameDone f reads).agenda.port = p.agenda.port ∧ (p.frameDone f
    reads).agenda.held = p.agenda.held ∧ (p.frameDone f reads).agenda.frames = p.agenda.frames ∧
    (p.frameDone f reads).clock = p.clock ∧ (p.frameDone f reads).serial = p.serial ∧ (p.frameDone f
    reads).free = p.free := by
  unfold Part.frameDone
  (try dsimp only)
  (repeat' split) <;> simp

@[simp] theorem Part.correlatorRead_keeps (result : Option (List Int)) (p : Part) :
    (p.correlatorRead result).fcu.mode = p.fcu.mode ∧ (p.correlatorRead result).fcu.resume = p.fcu.resume
    ∧ (p.correlatorRead result).fcu.stopCause = p.fcu.stopCause ∧ (p.correlatorRead
    result).fcu.hazardLevel = p.fcu.hazardLevel ∧ (p.correlatorRead result).fcu.permission =
    p.fcu.permission ∧ (p.correlatorRead result).fcu.keepSilent = p.fcu.keepSilent ∧ (p.correlatorRead
    result).fcu.keepTimer = p.fcu.keepTimer ∧ (p.correlatorRead result).fcu.keepLimit = p.fcu.keepLimit ∧
    (p.correlatorRead result).fcu.silentAction = p.fcu.silentAction ∧ (p.correlatorRead
    result).fcu.zoneBladeMax = p.fcu.zoneBladeMax ∧ (p.correlatorRead result).fcu.levelToSend =
    p.fcu.levelToSend ∧ (p.correlatorRead result).ltr.zone = p.ltr.zone ∧ (p.correlatorRead
    result).ltr.lastZone = p.ltr.lastZone ∧ (p.correlatorRead result).ltr.spacing = p.ltr.spacing ∧
    (p.correlatorRead result).sq.refillArmed = p.sq.refillArmed ∧ (p.correlatorRead
    result).sq.starvedArmed = p.sq.starvedArmed ∧ (p.correlatorRead result).sq.refillMark =
    p.sq.refillMark ∧ (p.correlatorRead result).msh.previousLeft = p.msh.previousLeft ∧ (p.correlatorRead
    result).msh.previousRight = p.msh.previousRight ∧ (p.correlatorRead result).msh.errorMemory =
    p.msh.errorMemory ∧ (p.correlatorRead result).msh.source = p.msh.source ∧ (p.correlatorRead
    result).msh.credited = p.msh.credited ∧ (p.correlatorRead result).msh.wheels = p.msh.wheels ∧
    (p.correlatorRead result).msh.odometer = p.msh.odometer ∧ (p.correlatorRead result).msh.odometerCarry
    = p.msh.odometerCarry ∧ (p.correlatorRead result).msh.progressCarry = p.msh.progressCarry ∧
    (p.correlatorRead result).msh.periodTimer = p.msh.periodTimer ∧ (p.correlatorRead
    result).msh.computation = p.msh.computation ∧ (p.correlatorRead result).msh.kilotick = p.msh.kilotick
    ∧ (p.correlatorRead result).msh.maneuverSpeed = p.msh.maneuverSpeed
    ∧ (p.correlatorRead result).dbm.bus = p.dbm.bus ∧ (p.correlatorRead result).dbm.number = p.dbm.number
    ∧ (p.correlatorRead result).dbm.resetStops = p.dbm.resetStops ∧ (p.correlatorRead
    result).dbm.responseLimit = p.dbm.responseLimit ∧ (p.correlatorRead result).dbm.holdLimit =
    p.dbm.holdLimit ∧ (p.correlatorRead result).sin = p.sin ∧ (p.correlatorRead result).hre.walk =
    p.hre.walk ∧ (p.correlatorRead result).hre.active = p.hre.active ∧ (p.correlatorRead
    result).hre.pending = p.hre.pending ∧ (p.correlatorRead result).rtu.stack = p.rtu.stack ∧
    (p.correlatorRead result).rtu.overflow = p.rtu.overflow ∧ (p.correlatorRead result).rtu.crossings =
    p.rtu.crossings ∧ (p.correlatorRead result).rtu.applying = p.rtu.applying ∧ (p.correlatorRead
    result).rtu.planDue = p.rtu.planDue ∧ (p.correlatorRead result).rtu.planning = p.rtu.planning ∧
    (p.correlatorRead result).rtu.activity = p.rtu.activity ∧ (p.correlatorRead result).rtu.params =
    p.rtu.params ∧ (p.correlatorRead result).rtu.distance = p.rtu.distance ∧ (p.correlatorRead
    result).rtu.finalApproach = p.rtu.finalApproach ∧ (p.correlatorRead result).rtu.dockKey =
    p.rtu.dockKey ∧ (p.correlatorRead result).rtu.attempts = p.rtu.attempts ∧ (p.correlatorRead
    result).rtu.settle = p.rtu.settle ∧ (p.correlatorRead result).rtu.copies = p.rtu.copies ∧
    (p.correlatorRead result).tst.poisoned = p.tst.poisoned ∧ (p.correlatorRead result).tst.mode =
    p.tst.mode ∧ (p.correlatorRead result).tst.pattern = p.tst.pattern ∧ (p.correlatorRead
    result).tst.capture = p.tst.capture ∧ (p.correlatorRead result).tst.log = p.tst.log ∧
    (p.correlatorRead result).tst.scrubPointer = p.tst.scrubPointer ∧ (p.correlatorRead
    result).tst.scrubTimer = p.tst.scrubTimer ∧ (p.correlatorRead result).tst.scrubPeriod =
    p.tst.scrubPeriod ∧ (p.correlatorRead result).tst.current = p.tst.current ∧ (p.correlatorRead
    result).plp.hunt = p.plp.hunt ∧ (p.correlatorRead result).plp.rx = p.plp.rx ∧ (p.correlatorRead
    result).plp.op = p.plp.op ∧ (p.correlatorRead result).plp.restarting = p.plp.restarting ∧
    (p.correlatorRead result).nco.urgentLevel = p.nco.urgentLevel ∧ (p.correlatorRead
    result).agenda.returning = p.agenda.returning ∧ (p.correlatorRead result).agenda.period =
    p.agenda.period ∧ (p.correlatorRead result).agenda.port = p.agenda.port ∧ (p.correlatorRead
    result).agenda.held = p.agenda.held ∧ (p.correlatorRead result).agenda.frames = p.agenda.frames ∧
    (p.correlatorRead result).clock = p.clock ∧ (p.correlatorRead result).serial = p.serial ∧
    (p.correlatorRead result).free = p.free := by
  unfold Part.correlatorRead
  (try dsimp only)
  (repeat' split) <;> simp

@[simp] theorem Part.staleLoop_keeps (i : Fin 8) (p : Part) :
    (p.staleLoop i).fcu = p.fcu ∧ (p.staleLoop i).scr = p.scr ∧ (p.staleLoop i).ltr.zone = p.ltr.zone ∧
    (p.staleLoop i).ltr.lastZone = p.ltr.lastZone ∧ (p.staleLoop i).ltr.eval = p.ltr.eval ∧ (p.staleLoop
    i).ltr.reevaluate = p.ltr.reevaluate ∧ (p.staleLoop i).ltr.spacing = p.ltr.spacing ∧ (p.staleLoop
    i).sq = p.sq ∧ (p.staleLoop i).msh = p.msh ∧ (p.staleLoop i).dbm = p.dbm ∧ (p.staleLoop i).sin = p.sin
    ∧ (p.staleLoop i).hre.walk = p.hre.walk ∧ (p.staleLoop i).hre.active = p.hre.active ∧ (p.staleLoop
    i).hre.pending = p.hre.pending ∧ (p.staleLoop i).rtu = p.rtu ∧ (p.staleLoop i).tst = p.tst ∧
    (p.staleLoop i).plp.hunt = p.plp.hunt ∧ (p.staleLoop i).plp.rx = p.plp.rx ∧ (p.staleLoop i).plp.op =
    p.plp.op ∧ (p.staleLoop i).plp.restarting = p.plp.restarting ∧ (p.staleLoop i).nco.urgentLevel =
    p.nco.urgentLevel ∧ (p.staleLoop i).agenda.blade = p.agenda.blade ∧ (p.staleLoop i).agenda.deferral =
    p.agenda.deferral ∧ (p.staleLoop i).agenda.removed = p.agenda.removed ∧ (p.staleLoop i).agenda.starved
    = p.agenda.starved ∧ (p.staleLoop i).agenda.returning = p.agenda.returning ∧ (p.staleLoop
    i).agenda.period = p.agenda.period ∧ (p.staleLoop i).agenda.bus = p.agenda.bus ∧ (p.staleLoop
    i).agenda.store = p.agenda.store ∧ (p.staleLoop i).agenda.port = p.agenda.port ∧ (p.staleLoop
    i).agenda.held = p.agenda.held ∧ (p.staleLoop i).agenda.frames = p.agenda.frames ∧ (p.staleLoop
    i).clock = p.clock ∧ (p.staleLoop i).serial = p.serial := by
  unfold Part.staleLoop
  (try dsimp only)
  (repeat' split) <;> simp

@[simp] theorem Part.coilStale_keeps (p : Part) :
    p.coilStale.fcu = p.fcu ∧ p.coilStale.scr = p.scr ∧ p.coilStale.ltr.zone = p.ltr.zone ∧
    p.coilStale.ltr.lastZone = p.ltr.lastZone ∧ p.coilStale.ltr.spacing = p.ltr.spacing ∧ p.coilStale.sq =
    p.sq ∧ p.coilStale.msh = p.msh ∧ p.coilStale.dbm = p.dbm ∧ p.coilStale.sin = p.sin ∧
    p.coilStale.hre.walk = p.hre.walk ∧ p.coilStale.hre.active = p.hre.active ∧ p.coilStale.hre.pending =
    p.hre.pending ∧ p.coilStale.rtu = p.rtu ∧ p.coilStale.tst.poisoned = p.tst.poisoned ∧
    p.coilStale.tst.mode = p.tst.mode ∧ p.coilStale.tst.pattern = p.tst.pattern ∧ p.coilStale.tst.capture
    = p.tst.capture ∧ p.coilStale.tst.log = p.tst.log ∧ p.coilStale.tst.scrubPointer = p.tst.scrubPointer
    ∧ p.coilStale.tst.scrubTimer = p.tst.scrubTimer ∧ p.coilStale.tst.scrubPeriod = p.tst.scrubPeriod ∧
    p.coilStale.tst.current = p.tst.current ∧ p.coilStale.plp.hunt = p.plp.hunt ∧ p.coilStale.plp.rx =
    p.plp.rx ∧ p.coilStale.plp.op = p.plp.op ∧ p.coilStale.plp.restarting = p.plp.restarting ∧
    p.coilStale.nco.urgentLevel = p.nco.urgentLevel ∧ p.coilStale.agenda.blade = p.agenda.blade ∧
    p.coilStale.agenda.deferral = p.agenda.deferral ∧ p.coilStale.agenda.removed = p.agenda.removed ∧
    p.coilStale.agenda.starved = p.agenda.starved ∧ p.coilStale.agenda.returning = p.agenda.returning ∧
    p.coilStale.agenda.period = p.agenda.period ∧ p.coilStale.agenda.bus = p.agenda.bus ∧
    p.coilStale.agenda.port = p.agenda.port ∧ p.coilStale.agenda.held = p.agenda.held ∧
    p.coilStale.agenda.frames = p.agenda.frames ∧ p.coilStale.clock = p.clock ∧ p.coilStale.serial =
    p.serial := by
  simp only [Part.coilStale, loopIndices, List.foldl]
  split <;> simp

@[simp] theorem Part.beginApplying_keeps (p : Part) :
    p.beginApplying.fcu = p.fcu ∧ p.beginApplying.scr = p.scr ∧ p.beginApplying.ltr = p.ltr ∧
    p.beginApplying.sq = p.sq ∧ p.beginApplying.msh = p.msh ∧ p.beginApplying.dbm = p.dbm ∧
    p.beginApplying.sin = p.sin ∧ p.beginApplying.hre = p.hre ∧ p.beginApplying.rtu.stack = p.rtu.stack ∧
    p.beginApplying.rtu.overflow = p.rtu.overflow ∧ p.beginApplying.rtu.planDue = p.rtu.planDue ∧
    p.beginApplying.rtu.planning = p.rtu.planning ∧ p.beginApplying.rtu.leg = p.rtu.leg ∧
    p.beginApplying.rtu.activity = p.rtu.activity ∧ p.beginApplying.rtu.params = p.rtu.params ∧
    p.beginApplying.rtu.distance = p.rtu.distance ∧ p.beginApplying.rtu.finalApproach =
    p.rtu.finalApproach ∧ p.beginApplying.rtu.dockKey = p.rtu.dockKey ∧ p.beginApplying.rtu.attempts =
    p.rtu.attempts ∧ p.beginApplying.rtu.settle = p.rtu.settle ∧ p.beginApplying.rtu.copies = p.rtu.copies
    ∧ p.beginApplying.tst.poisoned = p.tst.poisoned ∧ p.beginApplying.tst.mode = p.tst.mode ∧
    p.beginApplying.tst.pattern = p.tst.pattern ∧ p.beginApplying.tst.capture = p.tst.capture ∧
    p.beginApplying.tst.log = p.tst.log ∧ p.beginApplying.tst.scrubPointer = p.tst.scrubPointer ∧
    p.beginApplying.tst.scrubTimer = p.tst.scrubTimer ∧ p.beginApplying.tst.scrubPeriod =
    p.tst.scrubPeriod ∧ p.beginApplying.tst.current = p.tst.current ∧ p.beginApplying.plp = p.plp ∧
    p.beginApplying.nco = p.nco ∧ p.beginApplying.agenda.blade = p.agenda.blade ∧
    p.beginApplying.agenda.deferral = p.agenda.deferral ∧ p.beginApplying.agenda.removed =
    p.agenda.removed ∧ p.beginApplying.agenda.starved = p.agenda.starved ∧
    p.beginApplying.agenda.returning = p.agenda.returning ∧ p.beginApplying.agenda.period =
    p.agenda.period ∧ p.beginApplying.agenda.walk = p.agenda.walk ∧ p.beginApplying.agenda.bus =
    p.agenda.bus ∧ p.beginApplying.agenda.port = p.agenda.port ∧ p.beginApplying.agenda.held =
    p.agenda.held ∧ p.beginApplying.agenda.frames = p.agenda.frames ∧ p.beginApplying.clock = p.clock ∧
    p.beginApplying.serial = p.serial ∧ p.beginApplying.free = p.free := by
  unfold Part.beginApplying
  (try dsimp only)
  (repeat' split) <;> simp

@[simp] theorem Part.pushCrossing_keeps (c : Crossing) (p : Part) :
    (p.pushCrossing c).fcu = p.fcu ∧ (p.pushCrossing c).scr = p.scr ∧ (p.pushCrossing c).ltr = p.ltr ∧
    (p.pushCrossing c).sq = p.sq ∧ (p.pushCrossing c).msh = p.msh ∧ (p.pushCrossing c).dbm = p.dbm ∧
    (p.pushCrossing c).sin = p.sin ∧ (p.pushCrossing c).hre = p.hre ∧ (p.pushCrossing c).rtu.crossings =
    p.rtu.crossings ∧ (p.pushCrossing c).rtu.applying = p.rtu.applying ∧ (p.pushCrossing c).rtu.planDue =
    p.rtu.planDue ∧ (p.pushCrossing c).rtu.planning = p.rtu.planning ∧ (p.pushCrossing c).rtu.leg =
    p.rtu.leg ∧ (p.pushCrossing c).rtu.activity = p.rtu.activity ∧ (p.pushCrossing c).rtu.params =
    p.rtu.params ∧ (p.pushCrossing c).rtu.distance = p.rtu.distance ∧ (p.pushCrossing c).rtu.finalApproach
    = p.rtu.finalApproach ∧ (p.pushCrossing c).rtu.dockKey = p.rtu.dockKey ∧ (p.pushCrossing
    c).rtu.attempts = p.rtu.attempts ∧ (p.pushCrossing c).rtu.settle = p.rtu.settle ∧ (p.pushCrossing
    c).rtu.copies = p.rtu.copies ∧ (p.pushCrossing c).tst = p.tst ∧ (p.pushCrossing c).plp.hunt =
    p.plp.hunt ∧ (p.pushCrossing c).plp.rx = p.plp.rx ∧ (p.pushCrossing c).plp.op = p.plp.op ∧
    (p.pushCrossing c).plp.restarting = p.plp.restarting ∧ (p.pushCrossing c).nco.urgentLevel =
    p.nco.urgentLevel ∧ (p.pushCrossing c).agenda = p.agenda ∧ (p.pushCrossing c).clock = p.clock ∧
    (p.pushCrossing c).serial = p.serial ∧ (p.pushCrossing c).free = p.free := by
  unfold Part.pushCrossing
  (try dsimp only)
  (repeat' split) <;> simp

@[simp] theorem Part.applyCrossing_keeps (c : Crossing) (leaving entering : Nat) (p : Part) :
    (p.applyCrossing c leaving entering).fcu = p.fcu ∧ (p.applyCrossing c leaving entering).scr = p.scr ∧
    (p.applyCrossing c leaving entering).ltr = p.ltr ∧ (p.applyCrossing c leaving entering).sq = p.sq ∧
    (p.applyCrossing c leaving entering).msh = p.msh ∧ (p.applyCrossing c leaving entering).dbm = p.dbm ∧
    (p.applyCrossing c leaving entering).sin = p.sin ∧ (p.applyCrossing c leaving entering).hre = p.hre ∧
    (p.applyCrossing c leaving entering).rtu.crossings = p.rtu.crossings ∧ (p.applyCrossing c leaving
    entering).rtu.applying = p.rtu.applying ∧ (p.applyCrossing c leaving entering).rtu.planDue =
    p.rtu.planDue ∧ (p.applyCrossing c leaving entering).rtu.planning = p.rtu.planning ∧ (p.applyCrossing
    c leaving entering).rtu.leg = p.rtu.leg ∧ (p.applyCrossing c leaving entering).rtu.activity =
    p.rtu.activity ∧ (p.applyCrossing c leaving entering).rtu.params = p.rtu.params ∧ (p.applyCrossing c
    leaving entering).rtu.distance = p.rtu.distance ∧ (p.applyCrossing c leaving
    entering).rtu.finalApproach = p.rtu.finalApproach ∧ (p.applyCrossing c leaving entering).rtu.dockKey =
    p.rtu.dockKey ∧ (p.applyCrossing c leaving entering).rtu.attempts = p.rtu.attempts ∧ (p.applyCrossing
    c leaving entering).rtu.settle = p.rtu.settle ∧ (p.applyCrossing c leaving entering).rtu.copies =
    p.rtu.copies ∧ (p.applyCrossing c leaving entering).tst = p.tst ∧ (p.applyCrossing c leaving
    entering).plp.hunt = p.plp.hunt ∧ (p.applyCrossing c leaving entering).plp.rx = p.plp.rx ∧
    (p.applyCrossing c leaving entering).plp.op = p.plp.op ∧ (p.applyCrossing c leaving
    entering).plp.restarting = p.plp.restarting ∧ (p.applyCrossing c leaving entering).nco.urgentLevel =
    p.nco.urgentLevel ∧ (p.applyCrossing c leaving entering).agenda = p.agenda ∧ (p.applyCrossing c
    leaving entering).clock = p.clock ∧ (p.applyCrossing c leaving entering).serial = p.serial ∧
    (p.applyCrossing c leaving entering).free = p.free := by
  unfold Part.applyCrossing
  (try dsimp only)
  (repeat' split) <;> simp

@[simp] theorem Part.crossingRead_keeps (result : Option (List Int)) (p : Part) :
    (p.crossingRead result).fcu = p.fcu ∧ (p.crossingRead result).scr = p.scr ∧ (p.crossingRead
    result).ltr = p.ltr ∧ (p.crossingRead result).sq = p.sq ∧ (p.crossingRead result).msh = p.msh ∧
    (p.crossingRead result).dbm = p.dbm ∧ (p.crossingRead result).sin = p.sin ∧ (p.crossingRead
    result).hre = p.hre ∧ (p.crossingRead result).rtu.crossings = p.rtu.crossings ∧ (p.crossingRead
    result).rtu.planDue = p.rtu.planDue ∧ (p.crossingRead result).rtu.planning = p.rtu.planning ∧
    (p.crossingRead result).rtu.leg = p.rtu.leg ∧ (p.crossingRead result).rtu.activity = p.rtu.activity ∧
    (p.crossingRead result).rtu.params = p.rtu.params ∧ (p.crossingRead result).rtu.distance =
    p.rtu.distance ∧ (p.crossingRead result).rtu.finalApproach = p.rtu.finalApproach ∧ (p.crossingRead
    result).rtu.dockKey = p.rtu.dockKey ∧ (p.crossingRead result).rtu.attempts = p.rtu.attempts ∧
    (p.crossingRead result).rtu.settle = p.rtu.settle ∧ (p.crossingRead result).rtu.copies = p.rtu.copies
    ∧ (p.crossingRead result).tst.poisoned = p.tst.poisoned ∧ (p.crossingRead result).tst.mode =
    p.tst.mode ∧ (p.crossingRead result).tst.pattern = p.tst.pattern ∧ (p.crossingRead result).tst.capture
    = p.tst.capture ∧ (p.crossingRead result).tst.log = p.tst.log ∧ (p.crossingRead
    result).tst.scrubPointer = p.tst.scrubPointer ∧ (p.crossingRead result).tst.scrubTimer =
    p.tst.scrubTimer ∧ (p.crossingRead result).tst.scrubPeriod = p.tst.scrubPeriod ∧ (p.crossingRead
    result).tst.current = p.tst.current ∧ (p.crossingRead result).plp.hunt = p.plp.hunt ∧ (p.crossingRead
    result).plp.rx = p.plp.rx ∧ (p.crossingRead result).plp.op = p.plp.op ∧ (p.crossingRead
    result).plp.restarting = p.plp.restarting ∧ (p.crossingRead result).nco.urgentLevel =
    p.nco.urgentLevel ∧ (p.crossingRead result).agenda.blade = p.agenda.blade ∧ (p.crossingRead
    result).agenda.deferral = p.agenda.deferral ∧ (p.crossingRead result).agenda.removed =
    p.agenda.removed ∧ (p.crossingRead result).agenda.starved = p.agenda.starved ∧ (p.crossingRead
    result).agenda.period = p.agenda.period ∧ (p.crossingRead result).agenda.walk = p.agenda.walk ∧
    (p.crossingRead result).agenda.bus = p.agenda.bus ∧ (p.crossingRead result).agenda.port =
    p.agenda.port ∧ (p.crossingRead result).agenda.held = p.agenda.held ∧ (p.crossingRead
    result).agenda.frames = p.agenda.frames ∧ (p.crossingRead result).clock = p.clock ∧ (p.crossingRead
    result).serial = p.serial ∧ (p.crossingRead result).free = p.free := by
  unfold Part.crossingRead
  (try dsimp only)
  (repeat' split) <;> simp

@[simp] theorem Part.beginPlanning_keeps (p : Part) :
    p.beginPlanning.fcu.armRefused = p.fcu.armRefused ∧ p.beginPlanning.fcu.keepSilent = p.fcu.keepSilent
    ∧ p.beginPlanning.fcu.keepTimer = p.fcu.keepTimer ∧ p.beginPlanning.fcu.keepLimit = p.fcu.keepLimit ∧
    p.beginPlanning.fcu.silentAction = p.fcu.silentAction ∧ p.beginPlanning.fcu.zoneBladeMax =
    p.fcu.zoneBladeMax ∧ p.beginPlanning.fcu.levelToSend = p.fcu.levelToSend ∧ p.beginPlanning.scr = p.scr
    ∧ p.beginPlanning.ltr = p.ltr ∧ p.beginPlanning.sq.refillArmed = p.sq.refillArmed ∧
    p.beginPlanning.sq.starvedArmed = p.sq.starvedArmed ∧ p.beginPlanning.sq.refillMark = p.sq.refillMark
    ∧ p.beginPlanning.msh.source = p.msh.source ∧ p.beginPlanning.msh.credited = p.msh.credited ∧
    p.beginPlanning.msh.wheels = p.msh.wheels ∧ p.beginPlanning.msh.odometer = p.msh.odometer ∧
    p.beginPlanning.msh.odometerCarry = p.msh.odometerCarry ∧ p.beginPlanning.msh.progress =
    p.msh.progress ∧ p.beginPlanning.msh.progressCarry = p.msh.progressCarry ∧
    p.beginPlanning.msh.periodTimer = p.msh.periodTimer ∧ p.beginPlanning.msh.kilotick = p.msh.kilotick ∧
    p.beginPlanning.msh.maneuverSpeed = p.msh.maneuverSpeed ∧
    p.beginPlanning.dbm.bus = p.dbm.bus ∧ p.beginPlanning.dbm.number = p.dbm.number ∧
    p.beginPlanning.dbm.resetStops = p.dbm.resetStops ∧ p.beginPlanning.dbm.responseLimit =
    p.dbm.responseLimit ∧ p.beginPlanning.dbm.holdLimit = p.dbm.holdLimit ∧ p.beginPlanning.sin = p.sin ∧
    p.beginPlanning.hre.queue = p.hre.queue ∧ p.beginPlanning.hre.walk = p.hre.walk ∧
    p.beginPlanning.rtu.applying = p.rtu.applying ∧ p.beginPlanning.rtu.params = p.rtu.params ∧
    p.beginPlanning.rtu.distance = p.rtu.distance ∧ p.beginPlanning.rtu.dockKey = p.rtu.dockKey ∧
    p.beginPlanning.rtu.copies = p.rtu.copies ∧ p.beginPlanning.tst.poisoned = p.tst.poisoned ∧
    p.beginPlanning.tst.mode = p.tst.mode ∧ p.beginPlanning.tst.pattern = p.tst.pattern ∧
    p.beginPlanning.tst.capture = p.tst.capture ∧ p.beginPlanning.tst.log = p.tst.log ∧
    p.beginPlanning.tst.scrubPointer = p.tst.scrubPointer ∧ p.beginPlanning.tst.scrubTimer =
    p.tst.scrubTimer ∧ p.beginPlanning.tst.scrubPeriod = p.tst.scrubPeriod ∧ p.beginPlanning.plp.hunt =
    p.plp.hunt ∧ p.beginPlanning.plp.rx = p.plp.rx ∧ p.beginPlanning.plp.op = p.plp.op ∧
    p.beginPlanning.plp.restarting = p.plp.restarting ∧ p.beginPlanning.nco.urgentLevel =
    p.nco.urgentLevel ∧ p.beginPlanning.agenda.period = p.agenda.period ∧ p.beginPlanning.agenda.walk =
    p.agenda.walk ∧ p.beginPlanning.agenda.port = p.agenda.port ∧ p.beginPlanning.agenda.held =
    p.agenda.held ∧ p.beginPlanning.agenda.frames = p.agenda.frames ∧ p.beginPlanning.clock = p.clock ∧
    p.beginPlanning.serial = p.serial ∧ p.beginPlanning.free = p.free := by
  unfold Part.beginPlanning
  (try dsimp only)
  (repeat' split) <;> simp

@[simp] theorem Part.planOn_keeps (pl : Planning) (stage : PlanStage) (t : Table) (i : Nat) (p : Part) :
    (p.planOn pl stage t i).fcu = p.fcu ∧ (p.planOn pl stage t i).scr = p.scr ∧ (p.planOn pl stage t
    i).ltr = p.ltr ∧ (p.planOn pl stage t i).sq = p.sq ∧ (p.planOn pl stage t i).msh = p.msh ∧ (p.planOn
    pl stage t i).dbm = p.dbm ∧ (p.planOn pl stage t i).sin = p.sin ∧ (p.planOn pl stage t i).hre = p.hre
    ∧ (p.planOn pl stage t i).rtu.stack = p.rtu.stack ∧ (p.planOn pl stage t i).rtu.overflow =
    p.rtu.overflow ∧ (p.planOn pl stage t i).rtu.crossings = p.rtu.crossings ∧ (p.planOn pl stage t
    i).rtu.applying = p.rtu.applying ∧ (p.planOn pl stage t i).rtu.planDue = p.rtu.planDue ∧ (p.planOn pl
    stage t i).rtu.leg = p.rtu.leg ∧ (p.planOn pl stage t i).rtu.activity = p.rtu.activity ∧ (p.planOn pl
    stage t i).rtu.params = p.rtu.params ∧ (p.planOn pl stage t i).rtu.distance = p.rtu.distance ∧
    (p.planOn pl stage t i).rtu.finalApproach = p.rtu.finalApproach ∧ (p.planOn pl stage t i).rtu.dockKey
    = p.rtu.dockKey ∧ (p.planOn pl stage t i).rtu.attempts = p.rtu.attempts ∧ (p.planOn pl stage t
    i).rtu.settle = p.rtu.settle ∧ (p.planOn pl stage t i).rtu.copies = p.rtu.copies ∧ (p.planOn pl stage
    t i).tst.poisoned = p.tst.poisoned ∧ (p.planOn pl stage t i).tst.mode = p.tst.mode ∧ (p.planOn pl
    stage t i).tst.pattern = p.tst.pattern ∧ (p.planOn pl stage t i).tst.capture = p.tst.capture ∧
    (p.planOn pl stage t i).tst.log = p.tst.log ∧ (p.planOn pl stage t i).tst.scrubPointer =
    p.tst.scrubPointer ∧ (p.planOn pl stage t i).tst.scrubTimer = p.tst.scrubTimer ∧ (p.planOn pl stage t
    i).tst.scrubPeriod = p.tst.scrubPeriod ∧ (p.planOn pl stage t i).tst.current = p.tst.current ∧
    (p.planOn pl stage t i).plp = p.plp ∧ (p.planOn pl stage t i).nco = p.nco ∧ (p.planOn pl stage t
    i).agenda.blade = p.agenda.blade ∧ (p.planOn pl stage t i).agenda.deferral = p.agenda.deferral ∧
    (p.planOn pl stage t i).agenda.removed = p.agenda.removed ∧ (p.planOn pl stage t i).agenda.starved =
    p.agenda.starved ∧ (p.planOn pl stage t i).agenda.returning = p.agenda.returning ∧ (p.planOn pl stage
    t i).agenda.period = p.agenda.period ∧ (p.planOn pl stage t i).agenda.walk = p.agenda.walk ∧ (p.planOn
    pl stage t i).agenda.bus = p.agenda.bus ∧ (p.planOn pl stage t i).agenda.port = p.agenda.port ∧
    (p.planOn pl stage t i).agenda.held = p.agenda.held ∧ (p.planOn pl stage t i).agenda.frames =
    p.agenda.frames ∧ (p.planOn pl stage t i).clock = p.clock ∧ (p.planOn pl stage t i).serial = p.serial
    ∧ (p.planOn pl stage t i).free = p.free := by
  unfold Part.planOn
  (try dsimp only)
  (repeat' split) <;> simp

@[simp] theorem Part.endPlanning_keeps (p : Part) :
    p.endPlanning.fcu = p.fcu ∧ p.endPlanning.scr = p.scr ∧ p.endPlanning.ltr = p.ltr ∧ p.endPlanning.sq =
    p.sq ∧ p.endPlanning.msh = p.msh ∧ p.endPlanning.dbm = p.dbm ∧ p.endPlanning.sin = p.sin ∧
    p.endPlanning.hre = p.hre ∧ p.endPlanning.rtu.stack = p.rtu.stack ∧ p.endPlanning.rtu.overflow =
    p.rtu.overflow ∧ p.endPlanning.rtu.crossings = p.rtu.crossings ∧ p.endPlanning.rtu.applying =
    p.rtu.applying ∧ p.endPlanning.rtu.planDue = p.rtu.planDue ∧ p.endPlanning.rtu.leg = p.rtu.leg ∧
    p.endPlanning.rtu.activity = p.rtu.activity ∧ p.endPlanning.rtu.params = p.rtu.params ∧
    p.endPlanning.rtu.distance = p.rtu.distance ∧ p.endPlanning.rtu.finalApproach = p.rtu.finalApproach ∧
    p.endPlanning.rtu.dockKey = p.rtu.dockKey ∧ p.endPlanning.rtu.attempts = p.rtu.attempts ∧
    p.endPlanning.rtu.settle = p.rtu.settle ∧ p.endPlanning.rtu.copies = p.rtu.copies ∧ p.endPlanning.tst
    = p.tst ∧ p.endPlanning.plp = p.plp ∧ p.endPlanning.nco = p.nco ∧ p.endPlanning.agenda.blade =
    p.agenda.blade ∧ p.endPlanning.agenda.deferral = p.agenda.deferral ∧ p.endPlanning.agenda.removed =
    p.agenda.removed ∧ p.endPlanning.agenda.starved = p.agenda.starved ∧ p.endPlanning.agenda.period =
    p.agenda.period ∧ p.endPlanning.agenda.walk = p.agenda.walk ∧ p.endPlanning.agenda.bus = p.agenda.bus
    ∧ p.endPlanning.agenda.store = p.agenda.store ∧ p.endPlanning.agenda.port = p.agenda.port ∧
    p.endPlanning.agenda.held = p.agenda.held ∧ p.endPlanning.agenda.frames = p.agenda.frames ∧
    p.endPlanning.clock = p.clock ∧ p.endPlanning.serial = p.serial ∧ p.endPlanning.free = p.free := by
  unfold Part.endPlanning
  (try dsimp only)
  (repeat' split) <;> simp

@[simp] theorem Part.planFailed_keeps (p : Part) :
    p.planFailed.fcu.armRefused = p.fcu.armRefused ∧ p.planFailed.fcu.keepSilent = p.fcu.keepSilent ∧
    p.planFailed.fcu.keepTimer = p.fcu.keepTimer ∧ p.planFailed.fcu.keepLimit = p.fcu.keepLimit ∧
    p.planFailed.fcu.silentAction = p.fcu.silentAction ∧ p.planFailed.fcu.zoneBladeMax =
    p.fcu.zoneBladeMax ∧ p.planFailed.fcu.levelToSend = p.fcu.levelToSend ∧ p.planFailed.scr = p.scr ∧
    p.planFailed.ltr = p.ltr ∧ p.planFailed.sq.refillArmed = p.sq.refillArmed ∧
    p.planFailed.sq.starvedArmed = p.sq.starvedArmed ∧ p.planFailed.sq.refillMark = p.sq.refillMark ∧
    p.planFailed.msh.source = p.msh.source ∧ p.planFailed.msh.credited = p.msh.credited ∧
    p.planFailed.msh.wheels = p.msh.wheels ∧ p.planFailed.msh.odometer = p.msh.odometer ∧
    p.planFailed.msh.odometerCarry = p.msh.odometerCarry ∧ p.planFailed.msh.progress = p.msh.progress ∧
    p.planFailed.msh.progressCarry = p.msh.progressCarry ∧ p.planFailed.msh.periodTimer =
    p.msh.periodTimer ∧ p.planFailed.msh.kilotick = p.msh.kilotick ∧ p.planFailed.msh.maneuverSpeed =
    p.msh.maneuverSpeed ∧ p.planFailed.dbm.bus = p.dbm.bus ∧
    p.planFailed.dbm.number = p.dbm.number ∧ p.planFailed.dbm.resetStops = p.dbm.resetStops ∧
    p.planFailed.dbm.responseLimit = p.dbm.responseLimit ∧ p.planFailed.dbm.holdLimit = p.dbm.holdLimit ∧
    p.planFailed.sin = p.sin ∧ p.planFailed.hre.queue = p.hre.queue ∧ p.planFailed.hre.walk = p.hre.walk ∧
    p.planFailed.rtu.applying = p.rtu.applying ∧ p.planFailed.rtu.params = p.rtu.params ∧
    p.planFailed.rtu.distance = p.rtu.distance ∧ p.planFailed.rtu.dockKey = p.rtu.dockKey ∧
    p.planFailed.rtu.copies = p.rtu.copies ∧ p.planFailed.tst.poisoned = p.tst.poisoned ∧
    p.planFailed.tst.mode = p.tst.mode ∧ p.planFailed.tst.pattern = p.tst.pattern ∧
    p.planFailed.tst.capture = p.tst.capture ∧ p.planFailed.tst.log = p.tst.log ∧
    p.planFailed.tst.scrubPointer = p.tst.scrubPointer ∧ p.planFailed.tst.scrubTimer = p.tst.scrubTimer ∧
    p.planFailed.tst.scrubPeriod = p.tst.scrubPeriod ∧ p.planFailed.plp.hunt = p.plp.hunt ∧
    p.planFailed.plp.rx = p.plp.rx ∧ p.planFailed.plp.op = p.plp.op ∧ p.planFailed.plp.restarting =
    p.plp.restarting ∧ p.planFailed.nco.urgentLevel = p.nco.urgentLevel ∧ p.planFailed.agenda.period =
    p.agenda.period ∧ p.planFailed.agenda.walk = p.agenda.walk ∧ p.planFailed.agenda.store =
    p.agenda.store ∧ p.planFailed.agenda.port = p.agenda.port ∧ p.planFailed.agenda.held = p.agenda.held ∧
    p.planFailed.agenda.frames = p.agenda.frames ∧ p.planFailed.clock = p.clock ∧ p.planFailed.serial =
    p.serial ∧ p.planFailed.free = p.free := by
  unfold Part.planFailed
  (try dsimp only)
  (repeat' split) <;> simp

@[simp] theorem Part.makeLeg_keeps (pl : Planning) (search index target : Nat) (e : PassageEntry) (p :
Part) :
    (p.makeLeg pl search index target e).fcu = p.fcu ∧ (p.makeLeg pl search index target e).scr = p.scr ∧
    (p.makeLeg pl search index target e).ltr = p.ltr ∧ (p.makeLeg pl search index target e).sq = p.sq ∧
    (p.makeLeg pl search index target e).msh = p.msh ∧ (p.makeLeg pl search index target e).dbm = p.dbm ∧
    (p.makeLeg pl search index target e).sin = p.sin ∧ (p.makeLeg pl search index target e).hre = p.hre ∧
    (p.makeLeg pl search index target e).rtu.stack = p.rtu.stack ∧ (p.makeLeg pl search index target
    e).rtu.overflow = p.rtu.overflow ∧ (p.makeLeg pl search index target e).rtu.crossings =
    p.rtu.crossings ∧ (p.makeLeg pl search index target e).rtu.applying = p.rtu.applying ∧ (p.makeLeg pl
    search index target e).rtu.planDue = p.rtu.planDue ∧ (p.makeLeg pl search index target e).rtu.activity
    = p.rtu.activity ∧ (p.makeLeg pl search index target e).rtu.params = p.rtu.params ∧ (p.makeLeg pl
    search index target e).rtu.distance = p.rtu.distance ∧ (p.makeLeg pl search index target
    e).rtu.finalApproach = p.rtu.finalApproach ∧ (p.makeLeg pl search index target e).rtu.dockKey =
    p.rtu.dockKey ∧ (p.makeLeg pl search index target e).rtu.attempts = p.rtu.attempts ∧ (p.makeLeg pl
    search index target e).rtu.settle = p.rtu.settle ∧ (p.makeLeg pl search index target e).rtu.copies =
    p.rtu.copies ∧ (p.makeLeg pl search index target e).tst = p.tst ∧ (p.makeLeg pl search index target
    e).plp = p.plp ∧ (p.makeLeg pl search index target e).nco = p.nco ∧ (p.makeLeg pl search index target
    e).agenda.removed = p.agenda.removed ∧ (p.makeLeg pl search index target e).agenda.starved =
    p.agenda.starved ∧ (p.makeLeg pl search index target e).agenda.period = p.agenda.period ∧ (p.makeLeg
    pl search index target e).agenda.walk = p.agenda.walk ∧ (p.makeLeg pl search index target
    e).agenda.bus = p.agenda.bus ∧ (p.makeLeg pl search index target e).agenda.store = p.agenda.store ∧
    (p.makeLeg pl search index target e).agenda.port = p.agenda.port ∧ (p.makeLeg pl search index target
    e).agenda.held = p.agenda.held ∧ (p.makeLeg pl search index target e).agenda.frames = p.agenda.frames
    ∧ (p.makeLeg pl search index target e).clock = p.clock ∧ (p.makeLeg pl search index target e).free =
    p.free := by
  unfold Part.makeLeg
  (try dsimp only)
  (repeat' split) <;> simp

@[simp] theorem Part.planFrom_keeps (pl : Planning) (search : Nat) (p : Part) :
    (p.planFrom pl search).fcu = p.fcu ∧ (p.planFrom pl search).scr = p.scr ∧ (p.planFrom pl search).ltr =
    p.ltr ∧ (p.planFrom pl search).sq = p.sq ∧ (p.planFrom pl search).msh = p.msh ∧ (p.planFrom pl
    search).dbm = p.dbm ∧ (p.planFrom pl search).sin = p.sin ∧ (p.planFrom pl search).hre = p.hre ∧
    (p.planFrom pl search).rtu.stack = p.rtu.stack ∧ (p.planFrom pl search).rtu.overflow = p.rtu.overflow
    ∧ (p.planFrom pl search).rtu.crossings = p.rtu.crossings ∧ (p.planFrom pl search).rtu.applying =
    p.rtu.applying ∧ (p.planFrom pl search).rtu.planDue = p.rtu.planDue ∧ (p.planFrom pl search).rtu.leg =
    p.rtu.leg ∧ (p.planFrom pl search).rtu.activity = p.rtu.activity ∧ (p.planFrom pl search).rtu.params =
    p.rtu.params ∧ (p.planFrom pl search).rtu.distance = p.rtu.distance ∧ (p.planFrom pl
    search).rtu.finalApproach = p.rtu.finalApproach ∧ (p.planFrom pl search).rtu.dockKey = p.rtu.dockKey ∧
    (p.planFrom pl search).rtu.attempts = p.rtu.attempts ∧ (p.planFrom pl search).rtu.settle =
    p.rtu.settle ∧ (p.planFrom pl search).rtu.copies = p.rtu.copies ∧ (p.planFrom pl search).tst.poisoned
    = p.tst.poisoned ∧ (p.planFrom pl search).tst.mode = p.tst.mode ∧ (p.planFrom pl search).tst.pattern =
    p.tst.pattern ∧ (p.planFrom pl search).tst.capture = p.tst.capture ∧ (p.planFrom pl search).tst.log =
    p.tst.log ∧ (p.planFrom pl search).tst.scrubPointer = p.tst.scrubPointer ∧ (p.planFrom pl
    search).tst.scrubTimer = p.tst.scrubTimer ∧ (p.planFrom pl search).tst.scrubPeriod = p.tst.scrubPeriod
    ∧ (p.planFrom pl search).tst.current = p.tst.current ∧ (p.planFrom pl search).plp = p.plp ∧
    (p.planFrom pl search).nco = p.nco ∧ (p.planFrom pl search).agenda.blade = p.agenda.blade ∧
    (p.planFrom pl search).agenda.deferral = p.agenda.deferral ∧ (p.planFrom pl search).agenda.removed =
    p.agenda.removed ∧ (p.planFrom pl search).agenda.starved = p.agenda.starved ∧ (p.planFrom pl
    search).agenda.returning = p.agenda.returning ∧ (p.planFrom pl search).agenda.period = p.agenda.period
    ∧ (p.planFrom pl search).agenda.walk = p.agenda.walk ∧ (p.planFrom pl search).agenda.bus =
    p.agenda.bus ∧ (p.planFrom pl search).agenda.port = p.agenda.port ∧ (p.planFrom pl search).agenda.held
    = p.agenda.held ∧ (p.planFrom pl search).agenda.frames = p.agenda.frames ∧ (p.planFrom pl
    search).clock = p.clock ∧ (p.planFrom pl search).serial = p.serial ∧ (p.planFrom pl search).free =
    p.free := by
  unfold Part.planFrom
  (try dsimp only)
  (repeat' split) <;> simp

@[simp] theorem Part.planPassage_keeps (pl : Planning) (search index : Nat) (via : Via) (e : PassageEntry)
(p : Part) :
    (p.planPassage pl search index via e).fcu.armRefused = p.fcu.armRefused ∧ (p.planPassage pl search
    index via e).fcu.keepSilent = p.fcu.keepSilent ∧ (p.planPassage pl search index via e).fcu.keepTimer =
    p.fcu.keepTimer ∧ (p.planPassage pl search index via e).fcu.keepLimit = p.fcu.keepLimit ∧
    (p.planPassage pl search index via e).fcu.silentAction = p.fcu.silentAction ∧ (p.planPassage pl search
    index via e).fcu.zoneBladeMax = p.fcu.zoneBladeMax ∧ (p.planPassage pl search index via
    e).fcu.levelToSend = p.fcu.levelToSend ∧ (p.planPassage pl search index via e).scr = p.scr ∧
    (p.planPassage pl search index via e).ltr = p.ltr ∧ (p.planPassage pl search index via
    e).sq.refillArmed = p.sq.refillArmed ∧ (p.planPassage pl search index via e).sq.starvedArmed =
    p.sq.starvedArmed ∧ (p.planPassage pl search index via e).sq.refillMark = p.sq.refillMark ∧
    (p.planPassage pl search index via e).msh.source = p.msh.source ∧ (p.planPassage pl search index via
    e).msh.credited = p.msh.credited ∧ (p.planPassage pl search index via e).msh.wheels = p.msh.wheels ∧
    (p.planPassage pl search index via e).msh.odometer = p.msh.odometer ∧ (p.planPassage pl search index
    via e).msh.odometerCarry = p.msh.odometerCarry ∧ (p.planPassage pl search index via e).msh.progress =
    p.msh.progress ∧ (p.planPassage pl search index via e).msh.progressCarry = p.msh.progressCarry ∧
    (p.planPassage pl search index via e).msh.periodTimer = p.msh.periodTimer ∧ (p.planPassage pl search
    index via e).msh.kilotick = p.msh.kilotick ∧ (p.planPassage pl search
    index via e).msh.maneuverSpeed = p.msh.maneuverSpeed ∧ (p.planPassage pl search index via e).dbm.bus
    = p.dbm.bus
    ∧ (p.planPassage pl search index via e).dbm.number = p.dbm.number ∧ (p.planPassage pl search index via
    e).dbm.resetStops = p.dbm.resetStops ∧ (p.planPassage pl search index via e).dbm.responseLimit =
    p.dbm.responseLimit ∧ (p.planPassage pl search index via e).dbm.holdLimit = p.dbm.holdLimit ∧
    (p.planPassage pl search index via e).sin = p.sin ∧ (p.planPassage pl search index via e).hre.queue =
    p.hre.queue ∧ (p.planPassage pl search index via e).hre.walk = p.hre.walk ∧ (p.planPassage pl search
    index via e).rtu.applying = p.rtu.applying ∧ (p.planPassage pl search index via e).rtu.params =
    p.rtu.params ∧ (p.planPassage pl search index via e).rtu.distance = p.rtu.distance ∧ (p.planPassage pl
    search index via e).rtu.dockKey = p.rtu.dockKey ∧ (p.planPassage pl search index via e).rtu.copies =
    p.rtu.copies ∧ (p.planPassage pl search index via e).tst.poisoned = p.tst.poisoned ∧ (p.planPassage pl
    search index via e).tst.mode = p.tst.mode ∧ (p.planPassage pl search index via e).tst.pattern =
    p.tst.pattern ∧ (p.planPassage pl search index via e).tst.capture = p.tst.capture ∧ (p.planPassage pl
    search index via e).tst.log = p.tst.log ∧ (p.planPassage pl search index via e).tst.scrubPointer =
    p.tst.scrubPointer ∧ (p.planPassage pl search index via e).tst.scrubTimer = p.tst.scrubTimer ∧
    (p.planPassage pl search index via e).tst.scrubPeriod = p.tst.scrubPeriod ∧ (p.planPassage pl search
    index via e).plp.hunt = p.plp.hunt ∧ (p.planPassage pl search index via e).plp.rx = p.plp.rx ∧
    (p.planPassage pl search index via e).plp.op = p.plp.op ∧ (p.planPassage pl search index via
    e).plp.restarting = p.plp.restarting ∧ (p.planPassage pl search index via e).nco.urgentLevel =
    p.nco.urgentLevel ∧ (p.planPassage pl search index via e).agenda.period = p.agenda.period ∧
    (p.planPassage pl search index via e).agenda.walk = p.agenda.walk ∧ (p.planPassage pl search index via
    e).agenda.port = p.agenda.port ∧ (p.planPassage pl search index via e).agenda.held = p.agenda.held ∧
    (p.planPassage pl search index via e).agenda.frames = p.agenda.frames ∧ (p.planPassage pl search index
    via e).clock = p.clock ∧ (p.planPassage pl search index via e).free = p.free := by
  unfold Part.planPassage
  (try dsimp only)
  (repeat' split) <;> simp

@[simp] theorem Part.planRead_keeps (result : Option (List Int)) (p : Part) :
    (p.planRead result).fcu.armRefused = p.fcu.armRefused ∧ (p.planRead result).fcu.keepSilent =
    p.fcu.keepSilent ∧ (p.planRead result).fcu.keepTimer = p.fcu.keepTimer ∧ (p.planRead
    result).fcu.keepLimit = p.fcu.keepLimit ∧ (p.planRead result).fcu.silentAction = p.fcu.silentAction ∧
    (p.planRead result).fcu.zoneBladeMax = p.fcu.zoneBladeMax ∧ (p.planRead result).fcu.levelToSend =
    p.fcu.levelToSend ∧ (p.planRead result).scr = p.scr ∧ (p.planRead result).ltr = p.ltr ∧ (p.planRead
    result).sq.refillArmed = p.sq.refillArmed ∧ (p.planRead result).sq.starvedArmed = p.sq.starvedArmed ∧
    (p.planRead result).sq.refillMark = p.sq.refillMark ∧ (p.planRead result).msh.source = p.msh.source ∧
    (p.planRead result).msh.credited = p.msh.credited ∧ (p.planRead result).msh.wheels = p.msh.wheels ∧
    (p.planRead result).msh.odometer = p.msh.odometer ∧ (p.planRead result).msh.odometerCarry =
    p.msh.odometerCarry ∧ (p.planRead result).msh.progress = p.msh.progress ∧ (p.planRead
    result).msh.progressCarry = p.msh.progressCarry ∧ (p.planRead result).msh.periodTimer =
    p.msh.periodTimer ∧ (p.planRead result).msh.kilotick = p.msh.kilotick ∧ (p.planRead
    result).msh.maneuverSpeed = p.msh.maneuverSpeed ∧ (p.planRead result).dbm.bus =
    p.dbm.bus ∧ (p.planRead result).dbm.number = p.dbm.number ∧ (p.planRead result).dbm.resetStops =
    p.dbm.resetStops ∧ (p.planRead result).dbm.responseLimit = p.dbm.responseLimit ∧ (p.planRead
    result).dbm.holdLimit = p.dbm.holdLimit ∧ (p.planRead result).sin = p.sin ∧ (p.planRead
    result).hre.queue = p.hre.queue ∧ (p.planRead result).hre.walk = p.hre.walk ∧ (p.planRead
    result).rtu.applying = p.rtu.applying ∧ (p.planRead result).rtu.copies = p.rtu.copies ∧ (p.planRead
    result).tst.poisoned = p.tst.poisoned ∧ (p.planRead result).tst.mode = p.tst.mode ∧ (p.planRead
    result).tst.pattern = p.tst.pattern ∧ (p.planRead result).tst.capture = p.tst.capture ∧ (p.planRead
    result).tst.log = p.tst.log ∧ (p.planRead result).tst.scrubPointer = p.tst.scrubPointer ∧ (p.planRead
    result).tst.scrubTimer = p.tst.scrubTimer ∧ (p.planRead result).tst.scrubPeriod = p.tst.scrubPeriod ∧
    (p.planRead result).plp.hunt = p.plp.hunt ∧ (p.planRead result).plp.rx = p.plp.rx ∧ (p.planRead
    result).plp.op = p.plp.op ∧ (p.planRead result).plp.restarting = p.plp.restarting ∧ (p.planRead
    result).nco.urgentLevel = p.nco.urgentLevel ∧ (p.planRead result).agenda.period = p.agenda.period ∧
    (p.planRead result).agenda.walk = p.agenda.walk ∧ (p.planRead result).agenda.port = p.agenda.port ∧
    (p.planRead result).agenda.held = p.agenda.held ∧ (p.planRead result).agenda.frames = p.agenda.frames
    ∧ (p.planRead result).clock = p.clock ∧ (p.planRead result).free = p.free := by
  unfold Part.planRead
  (try dsimp only)
  (repeat' split) <;> simp

@[simp] theorem Part.returnPass_keeps (p : Part) :
    p.returnPass.fcu.armRefused = p.fcu.armRefused ∧ p.returnPass.fcu.keepSilent = p.fcu.keepSilent ∧
    p.returnPass.fcu.keepTimer = p.fcu.keepTimer ∧ p.returnPass.fcu.keepLimit = p.fcu.keepLimit ∧
    p.returnPass.fcu.silentAction = p.fcu.silentAction ∧ p.returnPass.fcu.zoneBladeMax =
    p.fcu.zoneBladeMax ∧ p.returnPass.fcu.levelToSend = p.fcu.levelToSend ∧ p.returnPass.scr = p.scr ∧
    p.returnPass.ltr = p.ltr ∧ p.returnPass.sq.refillArmed = p.sq.refillArmed ∧
    p.returnPass.sq.starvedArmed = p.sq.starvedArmed ∧ p.returnPass.sq.refillMark = p.sq.refillMark ∧
    p.returnPass.msh.source = p.msh.source ∧ p.returnPass.msh.credited = p.msh.credited ∧
    p.returnPass.msh.wheels = p.msh.wheels ∧ p.returnPass.msh.odometer = p.msh.odometer ∧
    p.returnPass.msh.odometerCarry = p.msh.odometerCarry ∧ p.returnPass.msh.progress = p.msh.progress ∧
    p.returnPass.msh.progressCarry = p.msh.progressCarry ∧ p.returnPass.msh.periodTimer =
    p.msh.periodTimer ∧ p.returnPass.msh.kilotick = p.msh.kilotick ∧ p.returnPass.msh.maneuverSpeed =
    p.msh.maneuverSpeed ∧ p.returnPass.dbm.bus = p.dbm.bus ∧
    p.returnPass.dbm.number = p.dbm.number ∧ p.returnPass.dbm.resetStops = p.dbm.resetStops ∧
    p.returnPass.dbm.responseLimit = p.dbm.responseLimit ∧ p.returnPass.dbm.holdLimit = p.dbm.holdLimit ∧
    p.returnPass.sin = p.sin ∧ p.returnPass.hre.queue = p.hre.queue ∧ p.returnPass.hre.walk = p.hre.walk ∧
    p.returnPass.rtu.params = p.rtu.params ∧ p.returnPass.rtu.distance = p.rtu.distance ∧
    p.returnPass.rtu.dockKey = p.rtu.dockKey ∧ p.returnPass.rtu.copies = p.rtu.copies ∧
    p.returnPass.tst.poisoned = p.tst.poisoned ∧ p.returnPass.tst.mode = p.tst.mode ∧
    p.returnPass.tst.pattern = p.tst.pattern ∧ p.returnPass.tst.capture = p.tst.capture ∧
    p.returnPass.tst.log = p.tst.log ∧ p.returnPass.tst.scrubPointer = p.tst.scrubPointer ∧
    p.returnPass.tst.scrubTimer = p.tst.scrubTimer ∧ p.returnPass.tst.scrubPeriod = p.tst.scrubPeriod ∧
    p.returnPass.plp.hunt = p.plp.hunt ∧ p.returnPass.plp.rx = p.plp.rx ∧ p.returnPass.plp.op = p.plp.op ∧
    p.returnPass.plp.restarting = p.plp.restarting ∧ p.returnPass.nco.urgentLevel = p.nco.urgentLevel ∧
    p.returnPass.agenda.period = p.agenda.period ∧ p.returnPass.agenda.walk = p.agenda.walk ∧
    p.returnPass.agenda.port = p.agenda.port ∧ p.returnPass.agenda.held = p.agenda.held ∧
    p.returnPass.agenda.frames = p.agenda.frames ∧ p.returnPass.clock = p.clock ∧ p.returnPass.serial =
    p.serial ∧ p.returnPass.free = p.free := by
  unfold Part.returnPass
  (try dsimp only)
  (repeat' split) <;> simp

@[simp] theorem Part.contactSeen_keeps (p : Part) :
    p.contactSeen.fcu.armRefused = p.fcu.armRefused ∧ p.contactSeen.fcu.keepSilent = p.fcu.keepSilent ∧
    p.contactSeen.fcu.keepTimer = p.fcu.keepTimer ∧ p.contactSeen.fcu.keepLimit = p.fcu.keepLimit ∧
    p.contactSeen.fcu.silentAction = p.fcu.silentAction ∧ p.contactSeen.fcu.zoneBladeMax =
    p.fcu.zoneBladeMax ∧ p.contactSeen.fcu.levelToSend = p.fcu.levelToSend ∧ p.contactSeen.scr = p.scr ∧
    p.contactSeen.ltr = p.ltr ∧ p.contactSeen.sq.refillArmed = p.sq.refillArmed ∧
    p.contactSeen.sq.starvedArmed = p.sq.starvedArmed ∧ p.contactSeen.sq.refillMark = p.sq.refillMark ∧
    p.contactSeen.msh.source = p.msh.source ∧ p.contactSeen.msh.credited = p.msh.credited ∧
    p.contactSeen.msh.wheels = p.msh.wheels ∧ p.contactSeen.msh.odometer = p.msh.odometer ∧
    p.contactSeen.msh.odometerCarry = p.msh.odometerCarry ∧ p.contactSeen.msh.progress = p.msh.progress ∧
    p.contactSeen.msh.progressCarry = p.msh.progressCarry ∧ p.contactSeen.msh.periodTimer =
    p.msh.periodTimer ∧ p.contactSeen.msh.kilotick = p.msh.kilotick ∧ p.contactSeen.msh.maneuverSpeed =
    p.msh.maneuverSpeed ∧ p.contactSeen.dbm.bus = p.dbm.bus ∧
    p.contactSeen.dbm.number = p.dbm.number ∧ p.contactSeen.dbm.resetStops = p.dbm.resetStops ∧
    p.contactSeen.dbm.responseLimit = p.dbm.responseLimit ∧ p.contactSeen.dbm.holdLimit = p.dbm.holdLimit
    ∧ p.contactSeen.sin = p.sin ∧ p.contactSeen.hre.queue = p.hre.queue ∧ p.contactSeen.hre.walk =
    p.hre.walk ∧ p.contactSeen.rtu.applying = p.rtu.applying ∧ p.contactSeen.rtu.params = p.rtu.params ∧
    p.contactSeen.rtu.distance = p.rtu.distance ∧ p.contactSeen.rtu.dockKey = p.rtu.dockKey ∧
    p.contactSeen.rtu.copies = p.rtu.copies ∧ p.contactSeen.tst.poisoned = p.tst.poisoned ∧
    p.contactSeen.tst.mode = p.tst.mode ∧ p.contactSeen.tst.pattern = p.tst.pattern ∧
    p.contactSeen.tst.capture = p.tst.capture ∧ p.contactSeen.tst.log = p.tst.log ∧
    p.contactSeen.tst.scrubPointer = p.tst.scrubPointer ∧ p.contactSeen.tst.scrubTimer = p.tst.scrubTimer
    ∧ p.contactSeen.tst.scrubPeriod = p.tst.scrubPeriod ∧ p.contactSeen.plp.hunt = p.plp.hunt ∧
    p.contactSeen.plp.rx = p.plp.rx ∧ p.contactSeen.plp.op = p.plp.op ∧ p.contactSeen.plp.restarting =
    p.plp.restarting ∧ p.contactSeen.nco.urgentLevel = p.nco.urgentLevel ∧ p.contactSeen.agenda.period =
    p.agenda.period ∧ p.contactSeen.agenda.walk = p.agenda.walk ∧ p.contactSeen.agenda.store =
    p.agenda.store ∧ p.contactSeen.agenda.port = p.agenda.port ∧ p.contactSeen.agenda.held = p.agenda.held
    ∧ p.contactSeen.agenda.frames = p.agenda.frames ∧ p.contactSeen.clock = p.clock ∧ p.contactSeen.serial
    = p.serial ∧ p.contactSeen.free = p.free := by
  unfold Part.contactSeen
  (try dsimp only)
  (repeat' split) <;> simp

@[simp] theorem Part.countContact_keeps (contact : Nat) (p : Part) :
    (p.countContact contact).fcu.armRefused = p.fcu.armRefused ∧ (p.countContact contact).fcu.keepSilent =
    p.fcu.keepSilent ∧ (p.countContact contact).fcu.keepTimer = p.fcu.keepTimer ∧ (p.countContact
    contact).fcu.keepLimit = p.fcu.keepLimit ∧ (p.countContact contact).fcu.silentAction =
    p.fcu.silentAction ∧ (p.countContact contact).fcu.zoneBladeMax = p.fcu.zoneBladeMax ∧ (p.countContact
    contact).fcu.levelToSend = p.fcu.levelToSend ∧ (p.countContact contact).scr = p.scr ∧ (p.countContact
    contact).ltr = p.ltr ∧ (p.countContact contact).sq.refillArmed = p.sq.refillArmed ∧ (p.countContact
    contact).sq.starvedArmed = p.sq.starvedArmed ∧ (p.countContact contact).sq.refillMark =
    p.sq.refillMark ∧ (p.countContact contact).msh.source = p.msh.source ∧ (p.countContact
    contact).msh.credited = p.msh.credited ∧ (p.countContact contact).msh.wheels = p.msh.wheels ∧
    (p.countContact contact).msh.odometer = p.msh.odometer ∧ (p.countContact contact).msh.odometerCarry =
    p.msh.odometerCarry ∧ (p.countContact contact).msh.progress = p.msh.progress ∧ (p.countContact
    contact).msh.progressCarry = p.msh.progressCarry ∧ (p.countContact contact).msh.periodTimer =
    p.msh.periodTimer ∧ (p.countContact contact).msh.kilotick = p.msh.kilotick ∧ (p.countContact
    contact).msh.maneuverSpeed = p.msh.maneuverSpeed ∧ (p.countContact
    contact).dbm.bus = p.dbm.bus ∧ (p.countContact contact).dbm.number = p.dbm.number ∧ (p.countContact
    contact).dbm.resetStops = p.dbm.resetStops ∧ (p.countContact contact).dbm.responseLimit =
    p.dbm.responseLimit ∧ (p.countContact contact).dbm.holdLimit = p.dbm.holdLimit ∧ (p.countContact
    contact).sin = p.sin ∧ (p.countContact contact).hre.queue = p.hre.queue ∧ (p.countContact
    contact).hre.walk = p.hre.walk ∧ (p.countContact contact).rtu.applying = p.rtu.applying ∧
    (p.countContact contact).rtu.params = p.rtu.params ∧ (p.countContact contact).rtu.copies =
    p.rtu.copies ∧ (p.countContact contact).tst.poisoned = p.tst.poisoned ∧ (p.countContact
    contact).tst.mode = p.tst.mode ∧ (p.countContact contact).tst.pattern = p.tst.pattern ∧
    (p.countContact contact).tst.capture = p.tst.capture ∧ (p.countContact contact).tst.log = p.tst.log ∧
    (p.countContact contact).tst.scrubPointer = p.tst.scrubPointer ∧ (p.countContact
    contact).tst.scrubTimer = p.tst.scrubTimer ∧ (p.countContact contact).tst.scrubPeriod =
    p.tst.scrubPeriod ∧ (p.countContact contact).plp.hunt = p.plp.hunt ∧ (p.countContact contact).plp.rx =
    p.plp.rx ∧ (p.countContact contact).plp.op = p.plp.op ∧ (p.countContact contact).plp.restarting =
    p.plp.restarting ∧ (p.countContact contact).nco.urgentLevel = p.nco.urgentLevel ∧ (p.countContact
    contact).agenda.period = p.agenda.period ∧ (p.countContact contact).agenda.walk = p.agenda.walk ∧
    (p.countContact contact).agenda.store = p.agenda.store ∧ (p.countContact contact).agenda.port =
    p.agenda.port ∧ (p.countContact contact).agenda.held = p.agenda.held ∧ (p.countContact
    contact).agenda.frames = p.agenda.frames ∧ (p.countContact contact).clock = p.clock ∧ (p.countContact
    contact).free = p.free := by
  unfold Part.countContact
  (try dsimp only)
  (repeat' split) <;> simp

@[simp] theorem Part.environmentStale_keeps (p : Part) :
    p.environmentStale.fcu = p.fcu ∧ p.environmentStale.scr = p.scr ∧ p.environmentStale.ltr = p.ltr ∧
    p.environmentStale.sq = p.sq ∧ p.environmentStale.msh = p.msh ∧ p.environmentStale.dbm = p.dbm ∧
    p.environmentStale.sin = p.sin ∧ p.environmentStale.hre = p.hre ∧ p.environmentStale.rtu.stack =
    p.rtu.stack ∧ p.environmentStale.rtu.overflow = p.rtu.overflow ∧ p.environmentStale.rtu.crossings =
    p.rtu.crossings ∧ p.environmentStale.rtu.applying = p.rtu.applying ∧ p.environmentStale.rtu.planDue =
    p.rtu.planDue ∧ p.environmentStale.rtu.planning = p.rtu.planning ∧ p.environmentStale.rtu.leg =
    p.rtu.leg ∧ p.environmentStale.rtu.params = p.rtu.params ∧ p.environmentStale.rtu.copies =
    p.rtu.copies ∧ p.environmentStale.tst = p.tst ∧ p.environmentStale.plp.hunt = p.plp.hunt ∧
    p.environmentStale.plp.rx = p.plp.rx ∧ p.environmentStale.plp.op = p.plp.op ∧
    p.environmentStale.plp.restarting = p.plp.restarting ∧ p.environmentStale.nco.urgentLevel =
    p.nco.urgentLevel ∧ p.environmentStale.agenda.removed = p.agenda.removed ∧
    p.environmentStale.agenda.starved = p.agenda.starved ∧ p.environmentStale.agenda.returning =
    p.agenda.returning ∧ p.environmentStale.agenda.period = p.agenda.period ∧
    p.environmentStale.agenda.walk = p.agenda.walk ∧ p.environmentStale.agenda.bus = p.agenda.bus ∧
    p.environmentStale.agenda.store = p.agenda.store ∧ p.environmentStale.agenda.port = p.agenda.port ∧
    p.environmentStale.agenda.held = p.agenda.held ∧ p.environmentStale.agenda.frames = p.agenda.frames ∧
    p.environmentStale.clock = p.clock ∧ p.environmentStale.free = p.free := by
  unfold Part.environmentStale
  (try dsimp only)
  (repeat' split) <;> simp

end Sys2Proof.Machine
end

