-- ==== Sys2Proof/Laws/LinkKeeps.lean ====
section
/-! SUPPORT. What the table store, the port, the drive bus master and the end of an event leave of the
    part. -/

namespace Sys2Proof.Machine

@[simp] theorem Part.logError_keeps (reader : Reader) (e : FoundError) (p : Part) :
    (p.logError reader e).fcu = p.fcu ∧ (p.logError reader e).scr = p.scr ∧ (p.logError reader e).ltr =
    p.ltr ∧ (p.logError reader e).sq = p.sq ∧ (p.logError reader e).msh = p.msh ∧ (p.logError reader
    e).dbm = p.dbm ∧ (p.logError reader e).sin = p.sin ∧ (p.logError reader e).hre = p.hre ∧ (p.logError
    reader e).rtu = p.rtu ∧ (p.logError reader e).tst.poisoned = p.tst.poisoned ∧ (p.logError reader
    e).tst.mode = p.tst.mode ∧ (p.logError reader e).tst.pattern = p.tst.pattern ∧ (p.logError reader
    e).tst.capture = p.tst.capture ∧ (p.logError reader e).tst.scrubPointer = p.tst.scrubPointer ∧
    (p.logError reader e).tst.scrubTimer = p.tst.scrubTimer ∧ (p.logError reader e).tst.scrubPeriod =
    p.tst.scrubPeriod ∧ (p.logError reader e).tst.waiting = p.tst.waiting ∧ (p.logError reader
    e).tst.current = p.tst.current ∧ (p.logError reader e).plp.hunt = p.plp.hunt ∧ (p.logError reader
    e).plp.rx = p.plp.rx ∧ (p.logError reader e).plp.op = p.plp.op ∧ (p.logError reader e).plp.restarting
    = p.plp.restarting ∧ (p.logError reader e).nco.urgentLevel = p.nco.urgentLevel ∧ (p.logError reader
    e).agenda = p.agenda ∧ (p.logError reader e).clock = p.clock ∧ (p.logError reader e).serial = p.serial
    ∧ (p.logError reader e).free = p.free := by
  unfold Part.logError
  (try dsimp only)
  (repeat' split) <;> simp

@[simp] theorem Part.logErrors_keeps (reader : Reader) (x0 : List FoundError) (p : Part) :
    (p.logErrors reader x0).fcu = p.fcu ∧ (p.logErrors reader x0).scr = p.scr ∧ (p.logErrors reader
    x0).ltr = p.ltr ∧ (p.logErrors reader x0).sq = p.sq ∧ (p.logErrors reader x0).msh = p.msh ∧
    (p.logErrors reader x0).dbm = p.dbm ∧ (p.logErrors reader x0).sin = p.sin ∧ (p.logErrors reader
    x0).hre = p.hre ∧ (p.logErrors reader x0).rtu = p.rtu ∧ (p.logErrors reader x0).tst.poisoned =
    p.tst.poisoned ∧ (p.logErrors reader x0).tst.mode = p.tst.mode ∧ (p.logErrors reader x0).tst.pattern =
    p.tst.pattern ∧ (p.logErrors reader x0).tst.capture = p.tst.capture ∧ (p.logErrors reader
    x0).tst.scrubPointer = p.tst.scrubPointer ∧ (p.logErrors reader x0).tst.scrubTimer = p.tst.scrubTimer
    ∧ (p.logErrors reader x0).tst.scrubPeriod = p.tst.scrubPeriod ∧ (p.logErrors reader x0).tst.waiting =
    p.tst.waiting ∧ (p.logErrors reader x0).tst.current = p.tst.current ∧ (p.logErrors reader x0).plp.hunt
    = p.plp.hunt ∧ (p.logErrors reader x0).plp.rx = p.plp.rx ∧ (p.logErrors reader x0).plp.op = p.plp.op ∧
    (p.logErrors reader x0).plp.restarting = p.plp.restarting ∧ (p.logErrors reader x0).nco.urgentLevel =
    p.nco.urgentLevel ∧ (p.logErrors reader x0).agenda = p.agenda ∧ (p.logErrors reader x0).clock =
    p.clock ∧ (p.logErrors reader x0).serial = p.serial ∧ (p.logErrors reader x0).free = p.free := by
  induction x0 generalizing p with
  | nil => simp [Part.logErrors]
  | cons c cs ih => simp only [Part.logErrors]; (repeat' split) <;> simp_all

@[simp] theorem Part.poison_keeps (t : Table) (i : Nat) (reader : Reader) (own : Bool) (p : Part) :
    (p.poison t i reader own).fcu = p.fcu ∧ (p.poison t i reader own).scr = p.scr ∧ (p.poison t i reader
    own).ltr.tracks = p.ltr.tracks ∧ (p.poison t i reader own).ltr.zone = p.ltr.zone ∧ (p.poison t i
    reader own).ltr.lastZone = p.ltr.lastZone ∧ (p.poison t i reader own).ltr.spacing = p.ltr.spacing ∧
    (p.poison t i reader own).sq = p.sq ∧ (p.poison t i reader own).msh = p.msh ∧ (p.poison t i reader
    own).dbm = p.dbm ∧ (p.poison t i reader own).sin = p.sin ∧ (p.poison t i reader own).hre = p.hre ∧
    (p.poison t i reader own).rtu = p.rtu ∧ (p.poison t i reader own).tst.mode = p.tst.mode ∧ (p.poison t
    i reader own).tst.pattern = p.tst.pattern ∧ (p.poison t i reader own).tst.capture = p.tst.capture ∧
    (p.poison t i reader own).tst.log = p.tst.log ∧ (p.poison t i reader own).tst.scrubPointer =
    p.tst.scrubPointer ∧ (p.poison t i reader own).tst.scrubTimer = p.tst.scrubTimer ∧ (p.poison t i
    reader own).tst.scrubPeriod = p.tst.scrubPeriod ∧ (p.poison t i reader own).tst.current =
    p.tst.current ∧ (p.poison t i reader own).plp.hunt = p.plp.hunt ∧ (p.poison t i reader own).plp.rx =
    p.plp.rx ∧ (p.poison t i reader own).plp.op = p.plp.op ∧ (p.poison t i reader own).plp.restarting =
    p.plp.restarting ∧ (p.poison t i reader own).nco.urgentLevel = p.nco.urgentLevel ∧ (p.poison t i
    reader own).agenda.deferral = p.agenda.deferral ∧ (p.poison t i reader own).agenda.removed =
    p.agenda.removed ∧ (p.poison t i reader own).agenda.starved = p.agenda.starved ∧ (p.poison t i reader
    own).agenda.returning = p.agenda.returning ∧ (p.poison t i reader own).agenda.period = p.agenda.period
    ∧ (p.poison t i reader own).agenda.walk = p.agenda.walk ∧ (p.poison t i reader own).agenda.bus =
    p.agenda.bus ∧ (p.poison t i reader own).agenda.port = p.agenda.port ∧ (p.poison t i reader
    own).agenda.held = p.agenda.held ∧ (p.poison t i reader own).agenda.frames = p.agenda.frames ∧
    (p.poison t i reader own).clock = p.clock ∧ (p.poison t i reader own).serial = p.serial ∧ (p.poison t
    i reader own).free = p.free := by
  unfold Part.poison
  (try dsimp only)
  (repeat' split) <;> simp

@[simp] theorem Part.tableFault_keeps (p : Part) :
    p.tableFault.fcu.armRefused = p.fcu.armRefused ∧ p.tableFault.fcu.keepSilent = p.fcu.keepSilent ∧
    p.tableFault.fcu.keepTimer = p.fcu.keepTimer ∧ p.tableFault.fcu.keepLimit = p.fcu.keepLimit ∧
    p.tableFault.fcu.silentAction = p.fcu.silentAction ∧ p.tableFault.fcu.zoneBladeMax =
    p.fcu.zoneBladeMax ∧ p.tableFault.fcu.levelToSend = p.fcu.levelToSend ∧ p.tableFault.scr = p.scr ∧
    p.tableFault.ltr = p.ltr ∧ p.tableFault.sq.refillArmed = p.sq.refillArmed ∧
    p.tableFault.sq.starvedArmed = p.sq.starvedArmed ∧ p.tableFault.sq.refillMark = p.sq.refillMark ∧
    p.tableFault.msh.source = p.msh.source ∧ p.tableFault.msh.credited = p.msh.credited ∧
    p.tableFault.msh.wheels = p.msh.wheels ∧ p.tableFault.msh.odometer = p.msh.odometer ∧
    p.tableFault.msh.odometerCarry = p.msh.odometerCarry ∧ p.tableFault.msh.progress = p.msh.progress ∧
    p.tableFault.msh.progressCarry = p.msh.progressCarry ∧ p.tableFault.msh.periodTimer =
    p.msh.periodTimer ∧ p.tableFault.msh.kilotick = p.msh.kilotick ∧ p.tableFault.msh.maneuverSpeed =
    p.msh.maneuverSpeed ∧ p.tableFault.dbm.bus = p.dbm.bus ∧
    p.tableFault.dbm.number = p.dbm.number ∧ p.tableFault.dbm.resetStops = p.dbm.resetStops ∧
    p.tableFault.dbm.responseLimit = p.dbm.responseLimit ∧ p.tableFault.dbm.holdLimit = p.dbm.holdLimit ∧
    p.tableFault.sin = p.sin ∧ p.tableFault.hre.queue = p.hre.queue ∧ p.tableFault.hre.walk = p.hre.walk ∧
    p.tableFault.rtu.applying = p.rtu.applying ∧ p.tableFault.rtu.params = p.rtu.params ∧
    p.tableFault.rtu.distance = p.rtu.distance ∧ p.tableFault.rtu.dockKey = p.rtu.dockKey ∧
    p.tableFault.rtu.copies = p.rtu.copies ∧ p.tableFault.tst.poisoned = p.tst.poisoned ∧
    p.tableFault.tst.mode = p.tst.mode ∧ p.tableFault.tst.pattern = p.tst.pattern ∧
    p.tableFault.tst.capture = p.tst.capture ∧ p.tableFault.tst.log = p.tst.log ∧
    p.tableFault.tst.scrubPointer = p.tst.scrubPointer ∧ p.tableFault.tst.scrubTimer = p.tst.scrubTimer ∧
    p.tableFault.tst.scrubPeriod = p.tst.scrubPeriod ∧ p.tableFault.plp.hunt = p.plp.hunt ∧
    p.tableFault.plp.rx = p.plp.rx ∧ p.tableFault.plp.op = p.plp.op ∧ p.tableFault.plp.restarting =
    p.plp.restarting ∧ p.tableFault.nco.urgentLevel = p.nco.urgentLevel ∧ p.tableFault.agenda.period =
    p.agenda.period ∧ p.tableFault.agenda.walk = p.agenda.walk ∧ p.tableFault.agenda.store =
    p.agenda.store ∧ p.tableFault.agenda.port = p.agenda.port ∧ p.tableFault.agenda.held = p.agenda.held ∧
    p.tableFault.agenda.frames = p.agenda.frames ∧ p.tableFault.clock = p.clock ∧ p.tableFault.serial =
    p.serial ∧ p.tableFault.free = p.free := by
  unfold Part.tableFault
  (try dsimp only)
  (repeat' split) <;> simp

@[simp] theorem Part.loadCopies_keeps (v : List Int) (p : Part) :
    (p.loadCopies v).fcu.mode = p.fcu.mode ∧ (p.loadCopies v).fcu.resume = p.fcu.resume ∧ (p.loadCopies
    v).fcu.stopCause = p.fcu.stopCause ∧ (p.loadCopies v).fcu.hazardLevel = p.fcu.hazardLevel ∧
    (p.loadCopies v).fcu.blade = p.fcu.blade ∧ (p.loadCopies v).fcu.armRefused = p.fcu.armRefused ∧
    (p.loadCopies v).fcu.permission = p.fcu.permission ∧ (p.loadCopies v).fcu.keepSilent =
    p.fcu.keepSilent ∧ (p.loadCopies v).fcu.keepTimer = p.fcu.keepTimer ∧ (p.loadCopies
    v).fcu.zoneBladeMax = p.fcu.zoneBladeMax ∧ (p.loadCopies v).fcu.levelToSend = p.fcu.levelToSend ∧
    (p.loadCopies v).scr = p.scr ∧ (p.loadCopies v).ltr.tracks = p.ltr.tracks ∧ (p.loadCopies v).ltr.zone
    = p.ltr.zone ∧ (p.loadCopies v).ltr.lastZone = p.ltr.lastZone ∧ (p.loadCopies v).ltr.eval = p.ltr.eval
    ∧ (p.loadCopies v).ltr.reevaluate = p.ltr.reevaluate ∧ (p.loadCopies v).sq.queue = p.sq.queue ∧
    (p.loadCopies v).sq.active = p.sq.active ∧ (p.loadCopies v).sq.refillArmed = p.sq.refillArmed ∧
    (p.loadCopies v).sq.starvedArmed = p.sq.starvedArmed ∧ (p.loadCopies v).msh.previousLeft =
    p.msh.previousLeft ∧ (p.loadCopies v).msh.previousRight = p.msh.previousRight ∧ (p.loadCopies
    v).msh.errorMemory = p.msh.errorMemory ∧ (p.loadCopies v).msh.source = p.msh.source ∧ (p.loadCopies
    v).msh.credited = p.msh.credited ∧ (p.loadCopies v).msh.wheels = p.msh.wheels ∧ (p.loadCopies
    v).msh.odometer = p.msh.odometer ∧ (p.loadCopies v).msh.odometerCarry = p.msh.odometerCarry ∧
    (p.loadCopies v).msh.progress = p.msh.progress ∧ (p.loadCopies v).msh.progressCarry =
    p.msh.progressCarry ∧ (p.loadCopies v).msh.periodTimer = p.msh.periodTimer ∧ (p.loadCopies
    v).msh.computation = p.msh.computation ∧ (p.loadCopies v).dbm = p.dbm ∧ (p.loadCopies v).sin.bumper =
    p.sin.bumper ∧ (p.loadCopies v).sin.attitude = p.sin.attitude ∧ (p.loadCopies v).sin.range =
    p.sin.range ∧ (p.loadCopies v).sin.environment = p.sin.environment ∧ (p.loadCopies v).sin.stale =
    p.sin.stale ∧ (p.loadCopies v).sin.timers = p.sin.timers ∧ (p.loadCopies v).hre = p.hre ∧
    (p.loadCopies v).rtu.stack = p.rtu.stack ∧ (p.loadCopies v).rtu.overflow = p.rtu.overflow ∧
    (p.loadCopies v).rtu.crossings = p.rtu.crossings ∧ (p.loadCopies v).rtu.applying = p.rtu.applying ∧
    (p.loadCopies v).rtu.planDue = p.rtu.planDue ∧ (p.loadCopies v).rtu.planning = p.rtu.planning ∧
    (p.loadCopies v).rtu.leg = p.rtu.leg ∧ (p.loadCopies v).rtu.activity = p.rtu.activity ∧ (p.loadCopies
    v).rtu.params = p.rtu.params ∧ (p.loadCopies v).rtu.distance = p.rtu.distance ∧ (p.loadCopies
    v).rtu.finalApproach = p.rtu.finalApproach ∧ (p.loadCopies v).rtu.dockKey = p.rtu.dockKey ∧
    (p.loadCopies v).rtu.attempts = p.rtu.attempts ∧ (p.loadCopies v).rtu.settle = p.rtu.settle ∧
    (p.loadCopies v).tst = p.tst ∧ (p.loadCopies v).plp = p.plp ∧ (p.loadCopies v).agenda = p.agenda ∧
    (p.loadCopies v).clock = p.clock ∧ (p.loadCopies v).serial = p.serial ∧ (p.loadCopies v).free = p.free
    := by
  unfold Part.loadCopies
  (try dsimp only)
  (repeat' split) <;> simp

@[simp] theorem Part.settingsWritten_keeps (v : List Int) (p : Part) :
    (p.settingsWritten v).fcu.mode = p.fcu.mode ∧ (p.settingsWritten v).fcu.resume = p.fcu.resume ∧
    (p.settingsWritten v).fcu.stopCause = p.fcu.stopCause ∧ (p.settingsWritten v).fcu.hazardLevel =
    p.fcu.hazardLevel ∧ (p.settingsWritten v).fcu.blade = p.fcu.blade ∧ (p.settingsWritten
    v).fcu.armRefused = p.fcu.armRefused ∧ (p.settingsWritten v).fcu.permission = p.fcu.permission ∧
    (p.settingsWritten v).fcu.keepSilent = p.fcu.keepSilent ∧ (p.settingsWritten v).fcu.keepTimer =
    p.fcu.keepTimer ∧ (p.settingsWritten v).fcu.zoneBladeMax = p.fcu.zoneBladeMax ∧ (p.settingsWritten
    v).fcu.levelToSend = p.fcu.levelToSend ∧ (p.settingsWritten v).scr = p.scr ∧ (p.settingsWritten
    v).ltr.tracks = p.ltr.tracks ∧ (p.settingsWritten v).ltr.zone = p.ltr.zone ∧ (p.settingsWritten
    v).ltr.lastZone = p.ltr.lastZone ∧ (p.settingsWritten v).ltr.eval = p.ltr.eval ∧ (p.settingsWritten
    v).ltr.reevaluate = p.ltr.reevaluate ∧ (p.settingsWritten v).sq.queue = p.sq.queue ∧
    (p.settingsWritten v).sq.active = p.sq.active ∧ (p.settingsWritten v).sq.refillArmed =
    p.sq.refillArmed ∧ (p.settingsWritten v).sq.starvedArmed = p.sq.starvedArmed ∧ (p.settingsWritten
    v).msh.previousLeft = p.msh.previousLeft ∧ (p.settingsWritten v).msh.previousRight =
    p.msh.previousRight ∧ (p.settingsWritten v).msh.errorMemory = p.msh.errorMemory ∧ (p.settingsWritten
    v).msh.source = p.msh.source ∧ (p.settingsWritten v).msh.credited = p.msh.credited ∧
    (p.settingsWritten v).msh.wheels = p.msh.wheels ∧ (p.settingsWritten v).msh.odometer = p.msh.odometer
    ∧ (p.settingsWritten v).msh.odometerCarry = p.msh.odometerCarry ∧ (p.settingsWritten v).msh.progress =
    p.msh.progress ∧ (p.settingsWritten v).msh.progressCarry = p.msh.progressCarry ∧ (p.settingsWritten
    v).msh.periodTimer = p.msh.periodTimer ∧ (p.settingsWritten v).msh.computation = p.msh.computation ∧
    (p.settingsWritten v).dbm.nodes = p.dbm.nodes ∧ (p.settingsWritten v).dbm.bus = p.dbm.bus ∧
    (p.settingsWritten v).dbm.interlock = p.dbm.interlock ∧ (p.settingsWritten v).dbm.number =
    p.dbm.number ∧ (p.settingsWritten v).dbm.resetStops = p.dbm.resetStops ∧ (p.settingsWritten
    v).sin.bumper = p.sin.bumper ∧ (p.settingsWritten v).sin.attitude = p.sin.attitude ∧
    (p.settingsWritten v).sin.range = p.sin.range ∧ (p.settingsWritten v).sin.environment =
    p.sin.environment ∧ (p.settingsWritten v).sin.stale = p.sin.stale ∧ (p.settingsWritten v).sin.timers =
    p.sin.timers ∧ (p.settingsWritten v).hre = p.hre ∧ (p.settingsWritten v).rtu.stack = p.rtu.stack ∧
    (p.settingsWritten v).rtu.overflow = p.rtu.overflow ∧ (p.settingsWritten v).rtu.crossings =
    p.rtu.crossings ∧ (p.settingsWritten v).rtu.applying = p.rtu.applying ∧ (p.settingsWritten
    v).rtu.planDue = p.rtu.planDue ∧ (p.settingsWritten v).rtu.planning = p.rtu.planning ∧
    (p.settingsWritten v).rtu.leg = p.rtu.leg ∧ (p.settingsWritten v).rtu.activity = p.rtu.activity ∧
    (p.settingsWritten v).rtu.params = p.rtu.params ∧ (p.settingsWritten v).rtu.distance = p.rtu.distance
    ∧ (p.settingsWritten v).rtu.finalApproach = p.rtu.finalApproach ∧ (p.settingsWritten v).rtu.dockKey =
    p.rtu.dockKey ∧ (p.settingsWritten v).rtu.attempts = p.rtu.attempts ∧ (p.settingsWritten v).rtu.settle
    = p.rtu.settle ∧ (p.settingsWritten v).tst.poisoned = p.tst.poisoned ∧ (p.settingsWritten v).tst.mode
    = p.tst.mode ∧ (p.settingsWritten v).tst.pattern = p.tst.pattern ∧ (p.settingsWritten v).tst.capture =
    p.tst.capture ∧ (p.settingsWritten v).tst.log = p.tst.log ∧ (p.settingsWritten v).tst.scrubPointer =
    p.tst.scrubPointer ∧ (p.settingsWritten v).tst.waiting = p.tst.waiting ∧ (p.settingsWritten
    v).tst.current = p.tst.current ∧ (p.settingsWritten v).plp = p.plp ∧ (p.settingsWritten v).agenda =
    p.agenda ∧ (p.settingsWritten v).clock = p.clock ∧ (p.settingsWritten v).serial = p.serial ∧
    (p.settingsWritten v).free = p.free := by
  unfold Part.settingsWritten
  (try dsimp only)
  (repeat' split) <;> simp

@[simp] theorem Part.entryWritten_keeps (t : Table) (i : Nat) (v : List Int) (p : Part) :
    (p.entryWritten t i v).fcu.mode = p.fcu.mode ∧ (p.entryWritten t i v).fcu.resume = p.fcu.resume ∧
    (p.entryWritten t i v).fcu.stopCause = p.fcu.stopCause ∧ (p.entryWritten t i v).fcu.hazardLevel =
    p.fcu.hazardLevel ∧ (p.entryWritten t i v).fcu.blade = p.fcu.blade ∧ (p.entryWritten t i
    v).fcu.armRefused = p.fcu.armRefused ∧ (p.entryWritten t i v).fcu.permission = p.fcu.permission ∧
    (p.entryWritten t i v).fcu.keepSilent = p.fcu.keepSilent ∧ (p.entryWritten t i v).fcu.keepTimer =
    p.fcu.keepTimer ∧ (p.entryWritten t i v).fcu.levelToSend = p.fcu.levelToSend ∧ (p.entryWritten t i
    v).scr = p.scr ∧ (p.entryWritten t i v).ltr.tracks = p.ltr.tracks ∧ (p.entryWritten t i v).ltr.zone =
    p.ltr.zone ∧ (p.entryWritten t i v).ltr.lastZone = p.ltr.lastZone ∧ (p.entryWritten t i v).sq.queue =
    p.sq.queue ∧ (p.entryWritten t i v).sq.active = p.sq.active ∧ (p.entryWritten t i v).sq.refillArmed =
    p.sq.refillArmed ∧ (p.entryWritten t i v).sq.starvedArmed = p.sq.starvedArmed ∧ (p.entryWritten t i
    v).msh.previousLeft = p.msh.previousLeft ∧ (p.entryWritten t i v).msh.previousRight =
    p.msh.previousRight ∧ (p.entryWritten t i v).msh.errorMemory = p.msh.errorMemory ∧ (p.entryWritten t i
    v).msh.source = p.msh.source ∧ (p.entryWritten t i v).msh.credited = p.msh.credited ∧ (p.entryWritten
    t i v).msh.wheels = p.msh.wheels ∧ (p.entryWritten t i v).msh.odometer = p.msh.odometer ∧
    (p.entryWritten t i v).msh.odometerCarry = p.msh.odometerCarry ∧ (p.entryWritten t i v).msh.progress =
    p.msh.progress ∧ (p.entryWritten t i v).msh.progressCarry = p.msh.progressCarry ∧ (p.entryWritten t i
    v).msh.periodTimer = p.msh.periodTimer ∧ (p.entryWritten t i v).msh.computation = p.msh.computation ∧
    (p.entryWritten t i v).dbm.nodes = p.dbm.nodes ∧ (p.entryWritten t i v).dbm.bus = p.dbm.bus ∧
    (p.entryWritten t i v).dbm.interlock = p.dbm.interlock ∧ (p.entryWritten t i v).dbm.number =
    p.dbm.number ∧ (p.entryWritten t i v).dbm.resetStops = p.dbm.resetStops ∧ (p.entryWritten t i
    v).sin.bumper = p.sin.bumper ∧ (p.entryWritten t i v).sin.attitude = p.sin.attitude ∧ (p.entryWritten
    t i v).sin.range = p.sin.range ∧ (p.entryWritten t i v).sin.environment = p.sin.environment ∧
    (p.entryWritten t i v).sin.stale = p.sin.stale ∧ (p.entryWritten t i v).sin.timers = p.sin.timers ∧
    (p.entryWritten t i v).hre = p.hre ∧ (p.entryWritten t i v).rtu.stack = p.rtu.stack ∧ (p.entryWritten
    t i v).rtu.overflow = p.rtu.overflow ∧ (p.entryWritten t i v).rtu.crossings = p.rtu.crossings ∧
    (p.entryWritten t i v).rtu.applying = p.rtu.applying ∧ (p.entryWritten t i v).rtu.planDue =
    p.rtu.planDue ∧ (p.entryWritten t i v).rtu.planning = p.rtu.planning ∧ (p.entryWritten t i v).rtu.leg
    = p.rtu.leg ∧ (p.entryWritten t i v).rtu.activity = p.rtu.activity ∧ (p.entryWritten t i v).rtu.params
    = p.rtu.params ∧ (p.entryWritten t i v).rtu.distance = p.rtu.distance ∧ (p.entryWritten t i
    v).rtu.finalApproach = p.rtu.finalApproach ∧ (p.entryWritten t i v).rtu.dockKey = p.rtu.dockKey ∧
    (p.entryWritten t i v).rtu.attempts = p.rtu.attempts ∧ (p.entryWritten t i v).rtu.settle =
    p.rtu.settle ∧ (p.entryWritten t i v).tst.poisoned = p.tst.poisoned ∧ (p.entryWritten t i v).tst.mode
    = p.tst.mode ∧ (p.entryWritten t i v).tst.pattern = p.tst.pattern ∧ (p.entryWritten t i v).tst.capture
    = p.tst.capture ∧ (p.entryWritten t i v).tst.log = p.tst.log ∧ (p.entryWritten t i v).tst.scrubPointer
    = p.tst.scrubPointer ∧ (p.entryWritten t i v).tst.current = p.tst.current ∧ (p.entryWritten t i v).plp
    = p.plp ∧ (p.entryWritten t i v).agenda.deferral = p.agenda.deferral ∧ (p.entryWritten t i
    v).agenda.removed = p.agenda.removed ∧ (p.entryWritten t i v).agenda.starved = p.agenda.starved ∧
    (p.entryWritten t i v).agenda.returning = p.agenda.returning ∧ (p.entryWritten t i v).agenda.period =
    p.agenda.period ∧ (p.entryWritten t i v).agenda.walk = p.agenda.walk ∧ (p.entryWritten t i
    v).agenda.bus = p.agenda.bus ∧ (p.entryWritten t i v).agenda.port = p.agenda.port ∧ (p.entryWritten t
    i v).agenda.held = p.agenda.held ∧ (p.entryWritten t i v).agenda.frames = p.agenda.frames ∧
    (p.entryWritten t i v).clock = p.clock ∧ (p.entryWritten t i v).serial = p.serial ∧ (p.entryWritten t
    i v).free = p.free := by
  unfold Part.entryWritten
  (try dsimp only)
  (repeat' split) <;> simp

@[simp] theorem Part.answer_keeps (code : AnswerCode) (data : List Byte) (p : Part) :
    (p.answer code data).fcu = p.fcu ∧ (p.answer code data).scr = p.scr ∧ (p.answer code data).ltr = p.ltr
    ∧ (p.answer code data).sq = p.sq ∧ (p.answer code data).msh = p.msh ∧ (p.answer code data).dbm = p.dbm
    ∧ (p.answer code data).sin = p.sin ∧ (p.answer code data).hre = p.hre ∧ (p.answer code data).rtu =
    p.rtu ∧ (p.answer code data).tst = p.tst ∧ (p.answer code data).plp.hunt = p.plp.hunt ∧ (p.answer code
    data).plp.restarting = p.plp.restarting ∧ (p.answer code data).nco = p.nco ∧ (p.answer code
    data).agenda.blade = p.agenda.blade ∧ (p.answer code data).agenda.deferral = p.agenda.deferral ∧
    (p.answer code data).agenda.removed = p.agenda.removed ∧ (p.answer code data).agenda.starved =
    p.agenda.starved ∧ (p.answer code data).agenda.returning = p.agenda.returning ∧ (p.answer code
    data).agenda.period = p.agenda.period ∧ (p.answer code data).agenda.walk = p.agenda.walk ∧ (p.answer
    code data).agenda.bus = p.agenda.bus ∧ (p.answer code data).agenda.store = p.agenda.store ∧ (p.answer
    code data).agenda.held = p.agenda.held ∧ (p.answer code data).agenda.frames = p.agenda.frames ∧
    (p.answer code data).clock = p.clock ∧ (p.answer code data).serial = p.serial ∧ (p.answer code
    data).free = p.free := by
  unfold Part.answer
  (try dsimp only)
  (repeat' split) <;> simp

@[simp] theorem Part.plannerRead_keeps (op : PlannerOp) (t : Table) (i : Nat) (reader : Reader) (p : Part)
:
    (p.plannerRead op t i reader).fcu = p.fcu ∧ (p.plannerRead op t i reader).scr = p.scr ∧ (p.plannerRead
    op t i reader).ltr = p.ltr ∧ (p.plannerRead op t i reader).sq = p.sq ∧ (p.plannerRead op t i
    reader).msh = p.msh ∧ (p.plannerRead op t i reader).dbm = p.dbm ∧ (p.plannerRead op t i reader).sin =
    p.sin ∧ (p.plannerRead op t i reader).hre = p.hre ∧ (p.plannerRead op t i reader).rtu = p.rtu ∧
    (p.plannerRead op t i reader).tst.poisoned = p.tst.poisoned ∧ (p.plannerRead op t i reader).tst.mode =
    p.tst.mode ∧ (p.plannerRead op t i reader).tst.pattern = p.tst.pattern ∧ (p.plannerRead op t i
    reader).tst.capture = p.tst.capture ∧ (p.plannerRead op t i reader).tst.log = p.tst.log ∧
    (p.plannerRead op t i reader).tst.scrubPointer = p.tst.scrubPointer ∧ (p.plannerRead op t i
    reader).tst.scrubTimer = p.tst.scrubTimer ∧ (p.plannerRead op t i reader).tst.scrubPeriod =
    p.tst.scrubPeriod ∧ (p.plannerRead op t i reader).tst.current = p.tst.current ∧ (p.plannerRead op t i
    reader).plp.hunt = p.plp.hunt ∧ (p.plannerRead op t i reader).plp.rx = p.plp.rx ∧ (p.plannerRead op t
    i reader).plp.restarting = p.plp.restarting ∧ (p.plannerRead op t i reader).plp.tx = p.plp.tx ∧
    (p.plannerRead op t i reader).nco = p.nco ∧ (p.plannerRead op t i reader).agenda.blade =
    p.agenda.blade ∧ (p.plannerRead op t i reader).agenda.deferral = p.agenda.deferral ∧ (p.plannerRead op
    t i reader).agenda.removed = p.agenda.removed ∧ (p.plannerRead op t i reader).agenda.starved =
    p.agenda.starved ∧ (p.plannerRead op t i reader).agenda.returning = p.agenda.returning ∧
    (p.plannerRead op t i reader).agenda.period = p.agenda.period ∧ (p.plannerRead op t i
    reader).agenda.walk = p.agenda.walk ∧ (p.plannerRead op t i reader).agenda.bus = p.agenda.bus ∧
    (p.plannerRead op t i reader).agenda.port = p.agenda.port ∧ (p.plannerRead op t i reader).agenda.held
    = p.agenda.held ∧ (p.plannerRead op t i reader).agenda.frames = p.agenda.frames ∧ (p.plannerRead op t
    i reader).clock = p.clock ∧ (p.plannerRead op t i reader).serial = p.serial ∧ (p.plannerRead op t i
    reader).free = p.free := by
  unfold Part.plannerRead
  (try dsimp only)
  (repeat' split) <;> simp

@[simp] theorem Part.modeOk_keeps (p : Part) :
    p.modeOk.fcu = p.fcu ∧ p.modeOk.scr = p.scr ∧ p.modeOk.ltr = p.ltr ∧ p.modeOk.sq = p.sq ∧ p.modeOk.msh
    = p.msh ∧ p.modeOk.dbm = p.dbm ∧ p.modeOk.sin = p.sin ∧ p.modeOk.hre = p.hre ∧ p.modeOk.rtu = p.rtu ∧
    p.modeOk.tst = p.tst ∧ p.modeOk.plp.hunt = p.plp.hunt ∧ p.modeOk.plp.restarting = p.plp.restarting ∧
    p.modeOk.nco = p.nco ∧ p.modeOk.agenda.blade = p.agenda.blade ∧ p.modeOk.agenda.deferral =
    p.agenda.deferral ∧ p.modeOk.agenda.removed = p.agenda.removed ∧ p.modeOk.agenda.starved =
    p.agenda.starved ∧ p.modeOk.agenda.returning = p.agenda.returning ∧ p.modeOk.agenda.period =
    p.agenda.period ∧ p.modeOk.agenda.walk = p.agenda.walk ∧ p.modeOk.agenda.bus = p.agenda.bus ∧
    p.modeOk.agenda.store = p.agenda.store ∧ p.modeOk.agenda.held = p.agenda.held ∧ p.modeOk.agenda.frames
    = p.agenda.frames ∧ p.modeOk.clock = p.clock ∧ p.modeOk.serial = p.serial ∧ p.modeOk.free = p.free :=
    by
  unfold Part.modeOk
  (try dsimp only)
  (repeat' split) <;> simp

@[simp] theorem Part.beginCheck_keeps (home : Bool) (p : Part) :
    (p.beginCheck home).fcu = p.fcu ∧ (p.beginCheck home).scr = p.scr ∧ (p.beginCheck home).ltr = p.ltr ∧
    (p.beginCheck home).sq = p.sq ∧ (p.beginCheck home).msh = p.msh ∧ (p.beginCheck home).dbm = p.dbm ∧
    (p.beginCheck home).sin = p.sin ∧ (p.beginCheck home).hre = p.hre ∧ (p.beginCheck home).rtu = p.rtu ∧
    (p.beginCheck home).tst.poisoned = p.tst.poisoned ∧ (p.beginCheck home).tst.mode = p.tst.mode ∧
    (p.beginCheck home).tst.pattern = p.tst.pattern ∧ (p.beginCheck home).tst.capture = p.tst.capture ∧
    (p.beginCheck home).tst.log = p.tst.log ∧ (p.beginCheck home).tst.scrubPointer = p.tst.scrubPointer ∧
    (p.beginCheck home).tst.scrubTimer = p.tst.scrubTimer ∧ (p.beginCheck home).tst.scrubPeriod =
    p.tst.scrubPeriod ∧ (p.beginCheck home).tst.current = p.tst.current ∧ (p.beginCheck home).plp.hunt =
    p.plp.hunt ∧ (p.beginCheck home).plp.rx = p.plp.rx ∧ (p.beginCheck home).plp.restarting =
    p.plp.restarting ∧ (p.beginCheck home).plp.tx = p.plp.tx ∧ (p.beginCheck home).nco = p.nco ∧
    (p.beginCheck home).agenda.blade = p.agenda.blade ∧ (p.beginCheck home).agenda.deferral =
    p.agenda.deferral ∧ (p.beginCheck home).agenda.removed = p.agenda.removed ∧ (p.beginCheck
    home).agenda.starved = p.agenda.starved ∧ (p.beginCheck home).agenda.returning = p.agenda.returning ∧
    (p.beginCheck home).agenda.period = p.agenda.period ∧ (p.beginCheck home).agenda.walk = p.agenda.walk
    ∧ (p.beginCheck home).agenda.bus = p.agenda.bus ∧ (p.beginCheck home).agenda.port = p.agenda.port ∧
    (p.beginCheck home).agenda.held = p.agenda.held ∧ (p.beginCheck home).agenda.frames = p.agenda.frames
    ∧ (p.beginCheck home).clock = p.clock ∧ (p.beginCheck home).serial = p.serial ∧ (p.beginCheck
    home).free = p.free := by
  unfold Part.beginCheck
  (try dsimp only)
  (repeat' split) <;> simp

@[simp] theorem Part.modeRun_keeps (p : Part) :
    p.modeRun.fcu = p.fcu ∧ p.modeRun.scr = p.scr ∧ p.modeRun.ltr = p.ltr ∧ p.modeRun.sq = p.sq ∧
    p.modeRun.msh = p.msh ∧ p.modeRun.dbm = p.dbm ∧ p.modeRun.sin = p.sin ∧ p.modeRun.hre = p.hre ∧
    p.modeRun.rtu = p.rtu ∧ p.modeRun.tst.poisoned = p.tst.poisoned ∧ p.modeRun.tst.mode = p.tst.mode ∧
    p.modeRun.tst.pattern = p.tst.pattern ∧ p.modeRun.tst.capture = p.tst.capture ∧ p.modeRun.tst.log =
    p.tst.log ∧ p.modeRun.tst.scrubPointer = p.tst.scrubPointer ∧ p.modeRun.tst.scrubTimer =
    p.tst.scrubTimer ∧ p.modeRun.tst.scrubPeriod = p.tst.scrubPeriod ∧ p.modeRun.tst.current =
    p.tst.current ∧ p.modeRun.plp.hunt = p.plp.hunt ∧ p.modeRun.plp.restarting = p.plp.restarting ∧
    p.modeRun.nco = p.nco ∧ p.modeRun.agenda.blade = p.agenda.blade ∧ p.modeRun.agenda.deferral =
    p.agenda.deferral ∧ p.modeRun.agenda.removed = p.agenda.removed ∧ p.modeRun.agenda.starved =
    p.agenda.starved ∧ p.modeRun.agenda.returning = p.agenda.returning ∧ p.modeRun.agenda.period =
    p.agenda.period ∧ p.modeRun.agenda.walk = p.agenda.walk ∧ p.modeRun.agenda.bus = p.agenda.bus ∧
    p.modeRun.agenda.held = p.agenda.held ∧ p.modeRun.agenda.frames = p.agenda.frames ∧ p.modeRun.clock =
    p.clock ∧ p.modeRun.serial = p.serial ∧ p.modeRun.free = p.free := by
  unfold Part.modeRun
  (try dsimp only)
  (repeat' split) <;> simp

@[simp] theorem Part.modeHome_keeps (p : Part) :
    p.modeHome.fcu = p.fcu ∧ p.modeHome.scr = p.scr ∧ p.modeHome.ltr = p.ltr ∧ p.modeHome.sq = p.sq ∧
    p.modeHome.msh = p.msh ∧ p.modeHome.dbm = p.dbm ∧ p.modeHome.sin = p.sin ∧ p.modeHome.hre = p.hre ∧
    p.modeHome.rtu = p.rtu ∧ p.modeHome.tst.poisoned = p.tst.poisoned ∧ p.modeHome.tst.mode = p.tst.mode ∧
    p.modeHome.tst.pattern = p.tst.pattern ∧ p.modeHome.tst.capture = p.tst.capture ∧ p.modeHome.tst.log =
    p.tst.log ∧ p.modeHome.tst.scrubPointer = p.tst.scrubPointer ∧ p.modeHome.tst.scrubTimer =
    p.tst.scrubTimer ∧ p.modeHome.tst.scrubPeriod = p.tst.scrubPeriod ∧ p.modeHome.tst.current =
    p.tst.current ∧ p.modeHome.plp.hunt = p.plp.hunt ∧ p.modeHome.plp.restarting = p.plp.restarting ∧
    p.modeHome.nco = p.nco ∧ p.modeHome.agenda.blade = p.agenda.blade ∧ p.modeHome.agenda.deferral =
    p.agenda.deferral ∧ p.modeHome.agenda.removed = p.agenda.removed ∧ p.modeHome.agenda.starved =
    p.agenda.starved ∧ p.modeHome.agenda.returning = p.agenda.returning ∧ p.modeHome.agenda.period =
    p.agenda.period ∧ p.modeHome.agenda.walk = p.agenda.walk ∧ p.modeHome.agenda.bus = p.agenda.bus ∧
    p.modeHome.agenda.held = p.agenda.held ∧ p.modeHome.agenda.frames = p.agenda.frames ∧ p.modeHome.clock
    = p.clock ∧ p.modeHome.serial = p.serial ∧ p.modeHome.free = p.free := by
  unfold Part.modeHome
  (try dsimp only)
  (repeat' split) <;> simp

@[simp] theorem Part.modeIdle_keeps (p : Part) :
    p.modeIdle.fcu.armRefused = p.fcu.armRefused ∧ p.modeIdle.fcu.keepSilent = p.fcu.keepSilent ∧
    p.modeIdle.fcu.keepTimer = p.fcu.keepTimer ∧ p.modeIdle.fcu.keepLimit = p.fcu.keepLimit ∧
    p.modeIdle.fcu.silentAction = p.fcu.silentAction ∧ p.modeIdle.fcu.zoneBladeMax = p.fcu.zoneBladeMax ∧
    p.modeIdle.fcu.levelToSend = p.fcu.levelToSend ∧ p.modeIdle.scr = p.scr ∧ p.modeIdle.ltr = p.ltr ∧
    p.modeIdle.sq.refillArmed = p.sq.refillArmed ∧ p.modeIdle.sq.starvedArmed = p.sq.starvedArmed ∧
    p.modeIdle.sq.refillMark = p.sq.refillMark ∧ p.modeIdle.msh.source = p.msh.source ∧
    p.modeIdle.msh.credited = p.msh.credited ∧ p.modeIdle.msh.wheels = p.msh.wheels ∧
    p.modeIdle.msh.odometer = p.msh.odometer ∧ p.modeIdle.msh.odometerCarry = p.msh.odometerCarry ∧
    p.modeIdle.msh.progress = p.msh.progress ∧ p.modeIdle.msh.progressCarry = p.msh.progressCarry ∧
    p.modeIdle.msh.periodTimer = p.msh.periodTimer ∧ p.modeIdle.msh.kilotick = p.msh.kilotick ∧
    p.modeIdle.msh.maneuverSpeed = p.msh.maneuverSpeed ∧
    p.modeIdle.dbm.bus = p.dbm.bus ∧ p.modeIdle.dbm.number = p.dbm.number ∧ p.modeIdle.dbm.resetStops =
    p.dbm.resetStops ∧ p.modeIdle.dbm.responseLimit = p.dbm.responseLimit ∧ p.modeIdle.dbm.holdLimit =
    p.dbm.holdLimit ∧ p.modeIdle.sin = p.sin ∧ p.modeIdle.hre.queue = p.hre.queue ∧ p.modeIdle.hre.walk =
    p.hre.walk ∧ p.modeIdle.rtu.applying = p.rtu.applying ∧ p.modeIdle.rtu.params = p.rtu.params ∧
    p.modeIdle.rtu.distance = p.rtu.distance ∧ p.modeIdle.rtu.dockKey = p.rtu.dockKey ∧
    p.modeIdle.rtu.copies = p.rtu.copies ∧ p.modeIdle.tst.poisoned = p.tst.poisoned ∧ p.modeIdle.tst.mode
    = p.tst.mode ∧ p.modeIdle.tst.pattern = p.tst.pattern ∧ p.modeIdle.tst.capture = p.tst.capture ∧
    p.modeIdle.tst.log = p.tst.log ∧ p.modeIdle.tst.scrubPointer = p.tst.scrubPointer ∧
    p.modeIdle.tst.scrubTimer = p.tst.scrubTimer ∧ p.modeIdle.tst.scrubPeriod = p.tst.scrubPeriod ∧
    p.modeIdle.plp.hunt = p.plp.hunt ∧ p.modeIdle.plp.restarting = p.plp.restarting ∧
    p.modeIdle.nco.urgentLevel = p.nco.urgentLevel ∧ p.modeIdle.agenda.period = p.agenda.period ∧
    p.modeIdle.agenda.walk = p.agenda.walk ∧ p.modeIdle.agenda.store = p.agenda.store ∧
    p.modeIdle.agenda.held = p.agenda.held ∧ p.modeIdle.agenda.frames = p.agenda.frames ∧ p.modeIdle.clock
    = p.clock ∧ p.modeIdle.serial = p.serial ∧ p.modeIdle.free = p.free := by
  unfold Part.modeIdle
  (try dsimp only)
  (repeat' split) <;> simp

@[simp] theorem Part.modeClear_keeps (p : Part) :
    p.modeClear.fcu.armRefused = p.fcu.armRefused ∧ p.modeClear.fcu.keepSilent = p.fcu.keepSilent ∧
    p.modeClear.fcu.keepTimer = p.fcu.keepTimer ∧ p.modeClear.fcu.keepLimit = p.fcu.keepLimit ∧
    p.modeClear.fcu.silentAction = p.fcu.silentAction ∧ p.modeClear.fcu.zoneBladeMax = p.fcu.zoneBladeMax
    ∧ p.modeClear.fcu.levelToSend = p.fcu.levelToSend ∧ p.modeClear.scr = p.scr ∧ p.modeClear.ltr = p.ltr
    ∧ p.modeClear.sq.refillArmed = p.sq.refillArmed ∧ p.modeClear.sq.starvedArmed = p.sq.starvedArmed ∧
    p.modeClear.sq.refillMark = p.sq.refillMark ∧ p.modeClear.msh.source = p.msh.source ∧
    p.modeClear.msh.credited = p.msh.credited ∧ p.modeClear.msh.wheels = p.msh.wheels ∧
    p.modeClear.msh.odometer = p.msh.odometer ∧ p.modeClear.msh.odometerCarry = p.msh.odometerCarry ∧
    p.modeClear.msh.progress = p.msh.progress ∧ p.modeClear.msh.progressCarry = p.msh.progressCarry ∧
    p.modeClear.msh.periodTimer = p.msh.periodTimer ∧ p.modeClear.msh.kilotick = p.msh.kilotick ∧
    p.modeClear.msh.maneuverSpeed = p.msh.maneuverSpeed ∧
    p.modeClear.dbm.bus = p.dbm.bus ∧ p.modeClear.dbm.number = p.dbm.number ∧ p.modeClear.dbm.resetStops =
    p.dbm.resetStops ∧ p.modeClear.dbm.responseLimit = p.dbm.responseLimit ∧ p.modeClear.dbm.holdLimit =
    p.dbm.holdLimit ∧ p.modeClear.sin = p.sin ∧ p.modeClear.hre.queue = p.hre.queue ∧ p.modeClear.hre.walk
    = p.hre.walk ∧ p.modeClear.rtu.applying = p.rtu.applying ∧ p.modeClear.rtu.params = p.rtu.params ∧
    p.modeClear.rtu.distance = p.rtu.distance ∧ p.modeClear.rtu.dockKey = p.rtu.dockKey ∧
    p.modeClear.rtu.copies = p.rtu.copies ∧ p.modeClear.tst.poisoned = p.tst.poisoned ∧
    p.modeClear.tst.mode = p.tst.mode ∧ p.modeClear.tst.pattern = p.tst.pattern ∧ p.modeClear.tst.capture
    = p.tst.capture ∧ p.modeClear.tst.log = p.tst.log ∧ p.modeClear.tst.scrubPointer = p.tst.scrubPointer
    ∧ p.modeClear.tst.scrubTimer = p.tst.scrubTimer ∧ p.modeClear.tst.scrubPeriod = p.tst.scrubPeriod ∧
    p.modeClear.plp.hunt = p.plp.hunt ∧ p.modeClear.plp.restarting = p.plp.restarting ∧
    p.modeClear.nco.urgentLevel = p.nco.urgentLevel ∧ p.modeClear.agenda.period = p.agenda.period ∧
    p.modeClear.agenda.walk = p.agenda.walk ∧ p.modeClear.agenda.store = p.agenda.store ∧
    p.modeClear.agenda.held = p.agenda.held ∧ p.modeClear.agenda.frames = p.agenda.frames ∧
    p.modeClear.clock = p.clock ∧ p.modeClear.serial = p.serial ∧ p.modeClear.free = p.free := by
  unfold Part.modeClear
  (try dsimp only)
  (repeat' split) <;> simp

@[simp] theorem Part.modeRequest_keeps (code : Nat) (p : Part) :
    (p.modeRequest code).fcu.armRefused = p.fcu.armRefused ∧ (p.modeRequest code).fcu.keepSilent =
    p.fcu.keepSilent ∧ (p.modeRequest code).fcu.keepTimer = p.fcu.keepTimer ∧ (p.modeRequest
    code).fcu.keepLimit = p.fcu.keepLimit ∧ (p.modeRequest code).fcu.silentAction = p.fcu.silentAction ∧
    (p.modeRequest code).fcu.zoneBladeMax = p.fcu.zoneBladeMax ∧ (p.modeRequest code).fcu.levelToSend =
    p.fcu.levelToSend ∧ (p.modeRequest code).scr = p.scr ∧ (p.modeRequest code).ltr = p.ltr ∧
    (p.modeRequest code).sq.refillArmed = p.sq.refillArmed ∧ (p.modeRequest code).sq.starvedArmed =
    p.sq.starvedArmed ∧ (p.modeRequest code).sq.refillMark = p.sq.refillMark ∧ (p.modeRequest
    code).msh.source = p.msh.source ∧ (p.modeRequest code).msh.credited = p.msh.credited ∧ (p.modeRequest
    code).msh.wheels = p.msh.wheels ∧ (p.modeRequest code).msh.odometer = p.msh.odometer ∧ (p.modeRequest
    code).msh.odometerCarry = p.msh.odometerCarry ∧ (p.modeRequest code).msh.progress = p.msh.progress ∧
    (p.modeRequest code).msh.progressCarry = p.msh.progressCarry ∧ (p.modeRequest code).msh.periodTimer =
    p.msh.periodTimer ∧ (p.modeRequest code).msh.kilotick = p.msh.kilotick ∧ (p.modeRequest
    code).msh.maneuverSpeed = p.msh.maneuverSpeed ∧ (p.modeRequest code).dbm.bus
    = p.dbm.bus ∧ (p.modeRequest code).dbm.number = p.dbm.number ∧ (p.modeRequest code).dbm.resetStops =
    p.dbm.resetStops ∧ (p.modeRequest code).dbm.responseLimit = p.dbm.responseLimit ∧ (p.modeRequest
    code).dbm.holdLimit = p.dbm.holdLimit ∧ (p.modeRequest code).sin = p.sin ∧ (p.modeRequest
    code).hre.queue = p.hre.queue ∧ (p.modeRequest code).hre.walk = p.hre.walk ∧ (p.modeRequest
    code).rtu.applying = p.rtu.applying ∧ (p.modeRequest code).rtu.params = p.rtu.params ∧ (p.modeRequest
    code).rtu.distance = p.rtu.distance ∧ (p.modeRequest code).rtu.dockKey = p.rtu.dockKey ∧
    (p.modeRequest code).rtu.copies = p.rtu.copies ∧ (p.modeRequest code).tst.poisoned = p.tst.poisoned ∧
    (p.modeRequest code).tst.mode = p.tst.mode ∧ (p.modeRequest code).tst.pattern = p.tst.pattern ∧
    (p.modeRequest code).tst.capture = p.tst.capture ∧ (p.modeRequest code).tst.log = p.tst.log ∧
    (p.modeRequest code).tst.scrubPointer = p.tst.scrubPointer ∧ (p.modeRequest code).tst.scrubTimer =
    p.tst.scrubTimer ∧ (p.modeRequest code).tst.scrubPeriod = p.tst.scrubPeriod ∧ (p.modeRequest
    code).plp.hunt = p.plp.hunt ∧ (p.modeRequest code).plp.restarting = p.plp.restarting ∧ (p.modeRequest
    code).nco.urgentLevel = p.nco.urgentLevel ∧ (p.modeRequest code).agenda.period = p.agenda.period ∧
    (p.modeRequest code).agenda.walk = p.agenda.walk ∧ (p.modeRequest code).agenda.held = p.agenda.held ∧
    (p.modeRequest code).agenda.frames = p.agenda.frames ∧ (p.modeRequest code).clock = p.clock ∧
    (p.modeRequest code).serial = p.serial ∧ (p.modeRequest code).free = p.free := by
  unfold Part.modeRequest
  (try dsimp only)
  (repeat' split) <;> simp

@[simp] theorem Part.finishCheck_keeps (home : Bool) (perimeter : Nat) (p : Part) :
    (p.finishCheck home perimeter).fcu.stopCause = p.fcu.stopCause ∧ (p.finishCheck home
    perimeter).fcu.hazardLevel = p.fcu.hazardLevel ∧ (p.finishCheck home perimeter).fcu.permission =
    p.fcu.permission ∧ (p.finishCheck home perimeter).fcu.keepSilent = p.fcu.keepSilent ∧ (p.finishCheck
    home perimeter).fcu.keepTimer = p.fcu.keepTimer ∧ (p.finishCheck home perimeter).fcu.keepLimit =
    p.fcu.keepLimit ∧ (p.finishCheck home perimeter).fcu.silentAction = p.fcu.silentAction ∧
    (p.finishCheck home perimeter).fcu.zoneBladeMax = p.fcu.zoneBladeMax ∧ (p.finishCheck home
    perimeter).fcu.levelToSend = p.fcu.levelToSend ∧ (p.finishCheck home perimeter).scr = p.scr ∧
    (p.finishCheck home perimeter).ltr = p.ltr ∧ (p.finishCheck home perimeter).sq.refillArmed =
    p.sq.refillArmed ∧ (p.finishCheck home perimeter).sq.refillMark = p.sq.refillMark ∧ (p.finishCheck
    home perimeter).msh.previousLeft = p.msh.previousLeft ∧ (p.finishCheck home
    perimeter).msh.previousRight = p.msh.previousRight ∧ (p.finishCheck home perimeter).msh.errorMemory =
    p.msh.errorMemory ∧ (p.finishCheck home perimeter).msh.source = p.msh.source ∧ (p.finishCheck home
    perimeter).msh.credited = p.msh.credited ∧ (p.finishCheck home perimeter).msh.wheels = p.msh.wheels ∧
    (p.finishCheck home perimeter).msh.odometer = p.msh.odometer ∧ (p.finishCheck home
    perimeter).msh.odometerCarry = p.msh.odometerCarry ∧ (p.finishCheck home perimeter).msh.progressCarry
    = p.msh.progressCarry ∧ (p.finishCheck home perimeter).msh.periodTimer = p.msh.periodTimer ∧
    (p.finishCheck home perimeter).msh.computation = p.msh.computation ∧ (p.finishCheck home
    perimeter).msh.kilotick = p.msh.kilotick ∧ (p.finishCheck home
    perimeter).msh.maneuverSpeed = p.msh.maneuverSpeed ∧ (p.finishCheck home perimeter).dbm.bus =
    p.dbm.bus ∧
    (p.finishCheck home perimeter).dbm.number = p.dbm.number ∧ (p.finishCheck home
    perimeter).dbm.resetStops = p.dbm.resetStops ∧ (p.finishCheck home perimeter).dbm.responseLimit =
    p.dbm.responseLimit ∧ (p.finishCheck home perimeter).dbm.holdLimit = p.dbm.holdLimit ∧ (p.finishCheck
    home perimeter).sin = p.sin ∧ (p.finishCheck home perimeter).hre = p.hre ∧ (p.finishCheck home
    perimeter).rtu.stack = p.rtu.stack ∧ (p.finishCheck home perimeter).rtu.overflow = p.rtu.overflow ∧
    (p.finishCheck home perimeter).rtu.crossings = p.rtu.crossings ∧ (p.finishCheck home
    perimeter).rtu.applying = p.rtu.applying ∧ (p.finishCheck home perimeter).rtu.planning =
    p.rtu.planning ∧ (p.finishCheck home perimeter).rtu.leg = p.rtu.leg ∧ (p.finishCheck home
    perimeter).rtu.activity = p.rtu.activity ∧ (p.finishCheck home perimeter).rtu.params = p.rtu.params ∧
    (p.finishCheck home perimeter).rtu.distance = p.rtu.distance ∧ (p.finishCheck home
    perimeter).rtu.finalApproach = p.rtu.finalApproach ∧ (p.finishCheck home perimeter).rtu.dockKey =
    p.rtu.dockKey ∧ (p.finishCheck home perimeter).rtu.attempts = p.rtu.attempts ∧ (p.finishCheck home
    perimeter).rtu.settle = p.rtu.settle ∧ (p.finishCheck home perimeter).rtu.copies = p.rtu.copies ∧
    (p.finishCheck home perimeter).tst = p.tst ∧ (p.finishCheck home perimeter).plp.hunt = p.plp.hunt ∧
    (p.finishCheck home perimeter).plp.restarting = p.plp.restarting ∧ (p.finishCheck home
    perimeter).nco.urgentLevel = p.nco.urgentLevel ∧ (p.finishCheck home perimeter).agenda.period =
    p.agenda.period ∧ (p.finishCheck home perimeter).agenda.walk = p.agenda.walk ∧ (p.finishCheck home
    perimeter).agenda.store = p.agenda.store ∧ (p.finishCheck home perimeter).agenda.held = p.agenda.held
    ∧ (p.finishCheck home perimeter).agenda.frames = p.agenda.frames ∧ (p.finishCheck home
    perimeter).clock = p.clock ∧ (p.finishCheck home perimeter).serial = p.serial ∧ (p.finishCheck home
    perimeter).free = p.free := by
  unfold Part.finishCheck
  (try dsimp only)
  (repeat' split) <;> simp

@[simp] theorem Part.loopsChecked_keeps (home : Bool) (perimeters : List Nat) (p : Part) :
    (p.loopsChecked home perimeters).fcu = p.fcu ∧ (p.loopsChecked home perimeters).scr = p.scr ∧
    (p.loopsChecked home perimeters).ltr = p.ltr ∧ (p.loopsChecked home perimeters).sq = p.sq ∧
    (p.loopsChecked home perimeters).msh = p.msh ∧ (p.loopsChecked home perimeters).dbm = p.dbm ∧
    (p.loopsChecked home perimeters).sin = p.sin ∧ (p.loopsChecked home perimeters).hre = p.hre ∧
    (p.loopsChecked home perimeters).rtu = p.rtu ∧ (p.loopsChecked home perimeters).tst.poisoned =
    p.tst.poisoned ∧ (p.loopsChecked home perimeters).tst.mode = p.tst.mode ∧ (p.loopsChecked home
    perimeters).tst.pattern = p.tst.pattern ∧ (p.loopsChecked home perimeters).tst.capture = p.tst.capture
    ∧ (p.loopsChecked home perimeters).tst.log = p.tst.log ∧ (p.loopsChecked home
    perimeters).tst.scrubPointer = p.tst.scrubPointer ∧ (p.loopsChecked home perimeters).tst.scrubTimer =
    p.tst.scrubTimer ∧ (p.loopsChecked home perimeters).tst.scrubPeriod = p.tst.scrubPeriod ∧
    (p.loopsChecked home perimeters).tst.current = p.tst.current ∧ (p.loopsChecked home
    perimeters).plp.hunt = p.plp.hunt ∧ (p.loopsChecked home perimeters).plp.restarting = p.plp.restarting
    ∧ (p.loopsChecked home perimeters).nco = p.nco ∧ (p.loopsChecked home perimeters).agenda.blade =
    p.agenda.blade ∧ (p.loopsChecked home perimeters).agenda.deferral = p.agenda.deferral ∧
    (p.loopsChecked home perimeters).agenda.removed = p.agenda.removed ∧ (p.loopsChecked home
    perimeters).agenda.starved = p.agenda.starved ∧ (p.loopsChecked home perimeters).agenda.returning =
    p.agenda.returning ∧ (p.loopsChecked home perimeters).agenda.period = p.agenda.period ∧
    (p.loopsChecked home perimeters).agenda.walk = p.agenda.walk ∧ (p.loopsChecked home
    perimeters).agenda.bus = p.agenda.bus ∧ (p.loopsChecked home perimeters).agenda.held = p.agenda.held ∧
    (p.loopsChecked home perimeters).agenda.frames = p.agenda.frames ∧ (p.loopsChecked home
    perimeters).clock = p.clock ∧ (p.loopsChecked home perimeters).serial = p.serial ∧ (p.loopsChecked
    home perimeters).free = p.free := by
  unfold Part.loopsChecked
  (try dsimp only)
  (repeat' split) <;> simp

@[simp] theorem Part.checkRead_keeps (home : Bool) (stage : CheckStage) (result : Option (List Int)) (p :
Part) :
    (p.checkRead home stage result).fcu.stopCause = p.fcu.stopCause ∧ (p.checkRead home stage
    result).fcu.hazardLevel = p.fcu.hazardLevel ∧ (p.checkRead home stage result).fcu.permission =
    p.fcu.permission ∧ (p.checkRead home stage result).fcu.keepSilent = p.fcu.keepSilent ∧ (p.checkRead
    home stage result).fcu.keepTimer = p.fcu.keepTimer ∧ (p.checkRead home stage result).fcu.keepLimit =
    p.fcu.keepLimit ∧ (p.checkRead home stage result).fcu.silentAction = p.fcu.silentAction ∧ (p.checkRead
    home stage result).fcu.zoneBladeMax = p.fcu.zoneBladeMax ∧ (p.checkRead home stage
    result).fcu.levelToSend = p.fcu.levelToSend ∧ (p.checkRead home stage result).scr = p.scr ∧
    (p.checkRead home stage result).ltr = p.ltr ∧ (p.checkRead home stage result).sq.refillArmed =
    p.sq.refillArmed ∧ (p.checkRead home stage result).sq.refillMark = p.sq.refillMark ∧ (p.checkRead home
    stage result).msh.previousLeft = p.msh.previousLeft ∧ (p.checkRead home stage
    result).msh.previousRight = p.msh.previousRight ∧ (p.checkRead home stage result).msh.errorMemory =
    p.msh.errorMemory ∧ (p.checkRead home stage result).msh.source = p.msh.source ∧ (p.checkRead home
    stage result).msh.credited = p.msh.credited ∧ (p.checkRead home stage result).msh.wheels =
    p.msh.wheels ∧ (p.checkRead home stage result).msh.odometer = p.msh.odometer ∧ (p.checkRead home stage
    result).msh.odometerCarry = p.msh.odometerCarry ∧ (p.checkRead home stage result).msh.progressCarry =
    p.msh.progressCarry ∧ (p.checkRead home stage result).msh.periodTimer = p.msh.periodTimer ∧
    (p.checkRead home stage result).msh.computation = p.msh.computation ∧ (p.checkRead home stage
    result).msh.kilotick = p.msh.kilotick ∧ (p.checkRead home stage
    result).msh.maneuverSpeed = p.msh.maneuverSpeed ∧ (p.checkRead home stage result).dbm.bus = p.dbm.bus ∧
    (p.checkRead home stage result).dbm.number = p.dbm.number ∧ (p.checkRead home stage
    result).dbm.resetStops = p.dbm.resetStops ∧ (p.checkRead home stage result).dbm.responseLimit =
    p.dbm.responseLimit ∧ (p.checkRead home stage result).dbm.holdLimit = p.dbm.holdLimit ∧ (p.checkRead
    home stage result).sin = p.sin ∧ (p.checkRead home stage result).hre = p.hre ∧ (p.checkRead home stage
    result).rtu.stack = p.rtu.stack ∧ (p.checkRead home stage result).rtu.overflow = p.rtu.overflow ∧
    (p.checkRead home stage result).rtu.crossings = p.rtu.crossings ∧ (p.checkRead home stage
    result).rtu.applying = p.rtu.applying ∧ (p.checkRead home stage result).rtu.planning = p.rtu.planning
    ∧ (p.checkRead home stage result).rtu.leg = p.rtu.leg ∧ (p.checkRead home stage result).rtu.activity =
    p.rtu.activity ∧ (p.checkRead home stage result).rtu.params = p.rtu.params ∧ (p.checkRead home stage
    result).rtu.distance = p.rtu.distance ∧ (p.checkRead home stage result).rtu.finalApproach =
    p.rtu.finalApproach ∧ (p.checkRead home stage result).rtu.dockKey = p.rtu.dockKey ∧ (p.checkRead home
    stage result).rtu.attempts = p.rtu.attempts ∧ (p.checkRead home stage result).rtu.settle =
    p.rtu.settle ∧ (p.checkRead home stage result).rtu.copies = p.rtu.copies ∧ (p.checkRead home stage
    result).tst.poisoned = p.tst.poisoned ∧ (p.checkRead home stage result).tst.mode = p.tst.mode ∧
    (p.checkRead home stage result).tst.pattern = p.tst.pattern ∧ (p.checkRead home stage
    result).tst.capture = p.tst.capture ∧ (p.checkRead home stage result).tst.log = p.tst.log ∧
    (p.checkRead home stage result).tst.scrubPointer = p.tst.scrubPointer ∧ (p.checkRead home stage
    result).tst.scrubTimer = p.tst.scrubTimer ∧ (p.checkRead home stage result).tst.scrubPeriod =
    p.tst.scrubPeriod ∧ (p.checkRead home stage result).tst.current = p.tst.current ∧ (p.checkRead home
    stage result).plp.hunt = p.plp.hunt ∧ (p.checkRead home stage result).plp.restarting =
    p.plp.restarting ∧ (p.checkRead home stage result).nco.urgentLevel = p.nco.urgentLevel ∧ (p.checkRead
    home stage result).agenda.period = p.agenda.period ∧ (p.checkRead home stage result).agenda.walk =
    p.agenda.walk ∧ (p.checkRead home stage result).agenda.held = p.agenda.held ∧ (p.checkRead home stage
    result).agenda.frames = p.agenda.frames ∧ (p.checkRead home stage result).clock = p.clock ∧
    (p.checkRead home stage result).serial = p.serial ∧ (p.checkRead home stage result).free = p.free :=
    by
  unfold Part.checkRead
  (try dsimp only)
  (repeat' split) <;> simp

@[simp] theorem Part.placeChecked_keeps (segments : List Segment) (p : Part) :
    (p.placeChecked segments).fcu.mode = p.fcu.mode ∧ (p.placeChecked segments).fcu.resume = p.fcu.resume
    ∧ (p.placeChecked segments).fcu.stopCause = p.fcu.stopCause ∧ (p.placeChecked
    segments).fcu.hazardLevel = p.fcu.hazardLevel ∧ (p.placeChecked segments).fcu.permission =
    p.fcu.permission ∧ (p.placeChecked segments).fcu.keepSilent = p.fcu.keepSilent ∧ (p.placeChecked
    segments).fcu.keepTimer = p.fcu.keepTimer ∧ (p.placeChecked segments).fcu.keepLimit = p.fcu.keepLimit
    ∧ (p.placeChecked segments).fcu.silentAction = p.fcu.silentAction ∧ (p.placeChecked
    segments).fcu.zoneBladeMax = p.fcu.zoneBladeMax ∧ (p.placeChecked segments).fcu.levelToSend =
    p.fcu.levelToSend ∧ (p.placeChecked segments).scr = p.scr ∧ (p.placeChecked segments).ltr = p.ltr ∧
    (p.placeChecked segments).sq.refillMark = p.sq.refillMark ∧ (p.placeChecked segments).msh.previousLeft
    = p.msh.previousLeft ∧ (p.placeChecked segments).msh.previousRight = p.msh.previousRight ∧
    (p.placeChecked segments).msh.errorMemory = p.msh.errorMemory ∧ (p.placeChecked segments).msh.source =
    p.msh.source ∧ (p.placeChecked segments).msh.credited = p.msh.credited ∧ (p.placeChecked
    segments).msh.wheels = p.msh.wheels ∧ (p.placeChecked segments).msh.odometer = p.msh.odometer ∧
    (p.placeChecked segments).msh.odometerCarry = p.msh.odometerCarry ∧ (p.placeChecked
    segments).msh.progressCarry = p.msh.progressCarry ∧ (p.placeChecked segments).msh.periodTimer =
    p.msh.periodTimer ∧ (p.placeChecked segments).msh.computation = p.msh.computation ∧ (p.placeChecked
    segments).msh.kilotick = p.msh.kilotick ∧ (p.placeChecked
    segments).msh.maneuverSpeed = p.msh.maneuverSpeed ∧ (p.placeChecked segments).dbm.bus = p.dbm.bus ∧
    (p.placeChecked segments).dbm.number = p.dbm.number ∧ (p.placeChecked segments).dbm.resetStops =
    p.dbm.resetStops ∧ (p.placeChecked segments).dbm.responseLimit = p.dbm.responseLimit ∧ (p.placeChecked
    segments).dbm.holdLimit = p.dbm.holdLimit ∧ (p.placeChecked segments).sin = p.sin ∧ (p.placeChecked
    segments).hre = p.hre ∧ (p.placeChecked segments).rtu = p.rtu ∧ (p.placeChecked segments).tst = p.tst
    ∧ (p.placeChecked segments).plp.hunt = p.plp.hunt ∧ (p.placeChecked segments).plp.restarting =
    p.plp.restarting ∧ (p.placeChecked segments).nco.urgentLevel = p.nco.urgentLevel ∧ (p.placeChecked
    segments).agenda.returning = p.agenda.returning ∧ (p.placeChecked segments).agenda.period =
    p.agenda.period ∧ (p.placeChecked segments).agenda.walk = p.agenda.walk ∧ (p.placeChecked
    segments).agenda.store = p.agenda.store ∧ (p.placeChecked segments).agenda.held = p.agenda.held ∧
    (p.placeChecked segments).agenda.frames = p.agenda.frames ∧ (p.placeChecked segments).clock = p.clock
    ∧ (p.placeChecked segments).free = p.free := by
  unfold Part.placeChecked
  (try dsimp only)
  (repeat' split) <;> simp

@[simp] theorem Part.appendOn_keeps (segments : List Segment) (todo : List AppendCheck) (p : Part) :
    (p.appendOn segments todo).fcu.mode = p.fcu.mode ∧ (p.appendOn segments todo).fcu.resume =
    p.fcu.resume ∧ (p.appendOn segments todo).fcu.stopCause = p.fcu.stopCause ∧ (p.appendOn segments
    todo).fcu.hazardLevel = p.fcu.hazardLevel ∧ (p.appendOn segments todo).fcu.permission =
    p.fcu.permission ∧ (p.appendOn segments todo).fcu.keepSilent = p.fcu.keepSilent ∧ (p.appendOn segments
    todo).fcu.keepTimer = p.fcu.keepTimer ∧ (p.appendOn segments todo).fcu.keepLimit = p.fcu.keepLimit ∧
    (p.appendOn segments todo).fcu.silentAction = p.fcu.silentAction ∧ (p.appendOn segments
    todo).fcu.zoneBladeMax = p.fcu.zoneBladeMax ∧ (p.appendOn segments todo).fcu.levelToSend =
    p.fcu.levelToSend ∧ (p.appendOn segments todo).scr = p.scr ∧ (p.appendOn segments todo).ltr = p.ltr ∧
    (p.appendOn segments todo).sq.refillMark = p.sq.refillMark ∧ (p.appendOn segments
    todo).msh.previousLeft = p.msh.previousLeft ∧ (p.appendOn segments todo).msh.previousRight =
    p.msh.previousRight ∧ (p.appendOn segments todo).msh.errorMemory = p.msh.errorMemory ∧ (p.appendOn
    segments todo).msh.source = p.msh.source ∧ (p.appendOn segments todo).msh.credited = p.msh.credited ∧
    (p.appendOn segments todo).msh.wheels = p.msh.wheels ∧ (p.appendOn segments todo).msh.odometer =
    p.msh.odometer ∧ (p.appendOn segments todo).msh.odometerCarry = p.msh.odometerCarry ∧ (p.appendOn
    segments todo).msh.progressCarry = p.msh.progressCarry ∧ (p.appendOn segments todo).msh.periodTimer =
    p.msh.periodTimer ∧ (p.appendOn segments todo).msh.computation = p.msh.computation ∧ (p.appendOn
    segments todo).msh.kilotick = p.msh.kilotick ∧ (p.appendOn
    segments todo).msh.maneuverSpeed = p.msh.maneuverSpeed ∧ (p.appendOn segments todo).dbm.bus =
    p.dbm.bus ∧
    (p.appendOn segments todo).dbm.number = p.dbm.number ∧ (p.appendOn segments todo).dbm.resetStops =
    p.dbm.resetStops ∧ (p.appendOn segments todo).dbm.responseLimit = p.dbm.responseLimit ∧ (p.appendOn
    segments todo).dbm.holdLimit = p.dbm.holdLimit ∧ (p.appendOn segments todo).sin = p.sin ∧ (p.appendOn
    segments todo).hre = p.hre ∧ (p.appendOn segments todo).rtu = p.rtu ∧ (p.appendOn segments
    todo).tst.poisoned = p.tst.poisoned ∧ (p.appendOn segments todo).tst.mode = p.tst.mode ∧ (p.appendOn
    segments todo).tst.pattern = p.tst.pattern ∧ (p.appendOn segments todo).tst.capture = p.tst.capture ∧
    (p.appendOn segments todo).tst.log = p.tst.log ∧ (p.appendOn segments todo).tst.scrubPointer =
    p.tst.scrubPointer ∧ (p.appendOn segments todo).tst.scrubTimer = p.tst.scrubTimer ∧ (p.appendOn
    segments todo).tst.scrubPeriod = p.tst.scrubPeriod ∧ (p.appendOn segments todo).tst.current =
    p.tst.current ∧ (p.appendOn segments todo).plp.hunt = p.plp.hunt ∧ (p.appendOn segments
    todo).plp.restarting = p.plp.restarting ∧ (p.appendOn segments todo).nco.urgentLevel =
    p.nco.urgentLevel ∧ (p.appendOn segments todo).agenda.returning = p.agenda.returning ∧ (p.appendOn
    segments todo).agenda.period = p.agenda.period ∧ (p.appendOn segments todo).agenda.walk =
    p.agenda.walk ∧ (p.appendOn segments todo).agenda.held = p.agenda.held ∧ (p.appendOn segments
    todo).agenda.frames = p.agenda.frames ∧ (p.appendOn segments todo).clock = p.clock ∧ (p.appendOn
    segments todo).free = p.free := by
  unfold Part.appendOn
  (try dsimp only)
  (repeat' split) <;> simp

@[simp] theorem Part.appendRead_keeps (segments : List Segment) (todo : List AppendCheck) (result : Option
(List Int)) (p : Part) :
    (p.appendRead segments todo result).fcu.mode = p.fcu.mode ∧ (p.appendRead segments todo
    result).fcu.resume = p.fcu.resume ∧ (p.appendRead segments todo result).fcu.stopCause =
    p.fcu.stopCause ∧ (p.appendRead segments todo result).fcu.hazardLevel = p.fcu.hazardLevel ∧
    (p.appendRead segments todo result).fcu.permission = p.fcu.permission ∧ (p.appendRead segments todo
    result).fcu.keepSilent = p.fcu.keepSilent ∧ (p.appendRead segments todo result).fcu.keepTimer =
    p.fcu.keepTimer ∧ (p.appendRead segments todo result).fcu.keepLimit = p.fcu.keepLimit ∧ (p.appendRead
    segments todo result).fcu.silentAction = p.fcu.silentAction ∧ (p.appendRead segments todo
    result).fcu.zoneBladeMax = p.fcu.zoneBladeMax ∧ (p.appendRead segments todo result).fcu.levelToSend =
    p.fcu.levelToSend ∧ (p.appendRead segments todo result).scr = p.scr ∧ (p.appendRead segments todo
    result).ltr = p.ltr ∧ (p.appendRead segments todo result).sq.refillMark = p.sq.refillMark ∧
    (p.appendRead segments todo result).msh.previousLeft = p.msh.previousLeft ∧ (p.appendRead segments
    todo result).msh.previousRight = p.msh.previousRight ∧ (p.appendRead segments todo
    result).msh.errorMemory = p.msh.errorMemory ∧ (p.appendRead segments todo result).msh.source =
    p.msh.source ∧ (p.appendRead segments todo result).msh.credited = p.msh.credited ∧ (p.appendRead
    segments todo result).msh.wheels = p.msh.wheels ∧ (p.appendRead segments todo result).msh.odometer =
    p.msh.odometer ∧ (p.appendRead segments todo result).msh.odometerCarry = p.msh.odometerCarry ∧
    (p.appendRead segments todo result).msh.progressCarry = p.msh.progressCarry ∧ (p.appendRead segments
    todo result).msh.periodTimer = p.msh.periodTimer ∧ (p.appendRead segments todo result).msh.computation
    = p.msh.computation ∧ (p.appendRead segments todo result).msh.kilotick = p.msh.kilotick ∧
    (p.appendRead segments todo result).msh.maneuverSpeed = p.msh.maneuverSpeed ∧
    (p.appendRead segments todo result).dbm.bus = p.dbm.bus ∧ (p.appendRead segments todo
    result).dbm.number = p.dbm.number ∧ (p.appendRead segments todo result).dbm.resetStops =
    p.dbm.resetStops ∧ (p.appendRead segments todo result).dbm.responseLimit = p.dbm.responseLimit ∧
    (p.appendRead segments todo result).dbm.holdLimit = p.dbm.holdLimit ∧ (p.appendRead segments todo
    result).sin = p.sin ∧ (p.appendRead segments todo result).hre = p.hre ∧ (p.appendRead segments todo
    result).rtu = p.rtu ∧ (p.appendRead segments todo result).tst.poisoned = p.tst.poisoned ∧
    (p.appendRead segments todo result).tst.mode = p.tst.mode ∧ (p.appendRead segments todo
    result).tst.pattern = p.tst.pattern ∧ (p.appendRead segments todo result).tst.capture = p.tst.capture
    ∧ (p.appendRead segments todo result).tst.log = p.tst.log ∧ (p.appendRead segments todo
    result).tst.scrubPointer = p.tst.scrubPointer ∧ (p.appendRead segments todo result).tst.scrubTimer =
    p.tst.scrubTimer ∧ (p.appendRead segments todo result).tst.scrubPeriod = p.tst.scrubPeriod ∧
    (p.appendRead segments todo result).tst.current = p.tst.current ∧ (p.appendRead segments todo
    result).plp.hunt = p.plp.hunt ∧ (p.appendRead segments todo result).plp.restarting = p.plp.restarting
    ∧ (p.appendRead segments todo result).nco.urgentLevel = p.nco.urgentLevel ∧ (p.appendRead segments
    todo result).agenda.returning = p.agenda.returning ∧ (p.appendRead segments todo result).agenda.period
    = p.agenda.period ∧ (p.appendRead segments todo result).agenda.walk = p.agenda.walk ∧ (p.appendRead
    segments todo result).agenda.held = p.agenda.held ∧ (p.appendRead segments todo result).agenda.frames
    = p.agenda.frames ∧ (p.appendRead segments todo result).clock = p.clock ∧ (p.appendRead segments todo
    result).free = p.free := by
  unfold Part.appendRead
  (try dsimp only)
  (repeat' split) <;> simp

@[simp] theorem Part.planAppend_keeps (body : List Byte) (p : Part) :
    (p.planAppend body).fcu.mode = p.fcu.mode ∧ (p.planAppend body).fcu.resume = p.fcu.resume ∧
    (p.planAppend body).fcu.stopCause = p.fcu.stopCause ∧ (p.planAppend body).fcu.hazardLevel =
    p.fcu.hazardLevel ∧ (p.planAppend body).fcu.permission = p.fcu.permission ∧ (p.planAppend
    body).fcu.keepSilent = p.fcu.keepSilent ∧ (p.planAppend body).fcu.keepTimer = p.fcu.keepTimer ∧
    (p.planAppend body).fcu.keepLimit = p.fcu.keepLimit ∧ (p.planAppend body).fcu.silentAction =
    p.fcu.silentAction ∧ (p.planAppend body).fcu.zoneBladeMax = p.fcu.zoneBladeMax ∧ (p.planAppend
    body).fcu.levelToSend = p.fcu.levelToSend ∧ (p.planAppend body).scr = p.scr ∧ (p.planAppend body).ltr
    = p.ltr ∧ (p.planAppend body).sq.refillMark = p.sq.refillMark ∧ (p.planAppend body).msh.previousLeft =
    p.msh.previousLeft ∧ (p.planAppend body).msh.previousRight = p.msh.previousRight ∧ (p.planAppend
    body).msh.errorMemory = p.msh.errorMemory ∧ (p.planAppend body).msh.source = p.msh.source ∧
    (p.planAppend body).msh.credited = p.msh.credited ∧ (p.planAppend body).msh.wheels = p.msh.wheels ∧
    (p.planAppend body).msh.odometer = p.msh.odometer ∧ (p.planAppend body).msh.odometerCarry =
    p.msh.odometerCarry ∧ (p.planAppend body).msh.progressCarry = p.msh.progressCarry ∧ (p.planAppend
    body).msh.periodTimer = p.msh.periodTimer ∧ (p.planAppend body).msh.computation = p.msh.computation ∧
    (p.planAppend body).msh.kilotick = p.msh.kilotick ∧ (p.planAppend body).msh.maneuverSpeed =
    p.msh.maneuverSpeed ∧ (p.planAppend body).dbm.bus = p.dbm.bus ∧
    (p.planAppend body).dbm.number = p.dbm.number ∧ (p.planAppend body).dbm.resetStops = p.dbm.resetStops
    ∧ (p.planAppend body).dbm.responseLimit = p.dbm.responseLimit ∧ (p.planAppend body).dbm.holdLimit =
    p.dbm.holdLimit ∧ (p.planAppend body).sin = p.sin ∧ (p.planAppend body).hre = p.hre ∧ (p.planAppend
    body).rtu = p.rtu ∧ (p.planAppend body).tst.poisoned = p.tst.poisoned ∧ (p.planAppend body).tst.mode =
    p.tst.mode ∧ (p.planAppend body).tst.pattern = p.tst.pattern ∧ (p.planAppend body).tst.capture =
    p.tst.capture ∧ (p.planAppend body).tst.log = p.tst.log ∧ (p.planAppend body).tst.scrubPointer =
    p.tst.scrubPointer ∧ (p.planAppend body).tst.scrubTimer = p.tst.scrubTimer ∧ (p.planAppend
    body).tst.scrubPeriod = p.tst.scrubPeriod ∧ (p.planAppend body).tst.current = p.tst.current ∧
    (p.planAppend body).plp.hunt = p.plp.hunt ∧ (p.planAppend body).plp.restarting = p.plp.restarting ∧
    (p.planAppend body).nco.urgentLevel = p.nco.urgentLevel ∧ (p.planAppend body).agenda.returning =
    p.agenda.returning ∧ (p.planAppend body).agenda.period = p.agenda.period ∧ (p.planAppend
    body).agenda.walk = p.agenda.walk ∧ (p.planAppend body).agenda.held = p.agenda.held ∧ (p.planAppend
    body).agenda.frames = p.agenda.frames ∧ (p.planAppend body).clock = p.clock ∧ (p.planAppend body).free
    = p.free := by
  unfold Part.planAppend
  (try dsimp only)
  (repeat' split) <;> simp

@[simp] theorem Part.planFlush_keeps (p : Part) :
    p.planFlush.fcu = p.fcu ∧ p.planFlush.scr = p.scr ∧ p.planFlush.ltr = p.ltr ∧
    p.planFlush.sq.refillArmed = p.sq.refillArmed ∧ p.planFlush.sq.starvedArmed = p.sq.starvedArmed ∧
    p.planFlush.sq.refillMark = p.sq.refillMark ∧ p.planFlush.msh = p.msh ∧ p.planFlush.dbm = p.dbm ∧
    p.planFlush.sin = p.sin ∧ p.planFlush.hre = p.hre ∧ p.planFlush.rtu = p.rtu ∧ p.planFlush.tst = p.tst
    ∧ p.planFlush.plp.hunt = p.plp.hunt ∧ p.planFlush.plp.restarting = p.plp.restarting ∧
    p.planFlush.nco.urgentLevel = p.nco.urgentLevel ∧ p.planFlush.agenda.returning = p.agenda.returning ∧
    p.planFlush.agenda.period = p.agenda.period ∧ p.planFlush.agenda.walk = p.agenda.walk ∧
    p.planFlush.agenda.bus = p.agenda.bus ∧ p.planFlush.agenda.store = p.agenda.store ∧
    p.planFlush.agenda.held = p.agenda.held ∧ p.planFlush.agenda.frames = p.agenda.frames ∧
    p.planFlush.clock = p.clock ∧ p.planFlush.serial = p.serial ∧ p.planFlush.free = p.free := by
  unfold Part.planFlush
  (try dsimp only)
  (repeat' split) <;> simp

@[simp] theorem Part.writeOn_keeps (t : Table) (i : Nat) (mask : BitVec 64) (fields : List Int) (p : Part)
:
    (p.writeOn t i mask fields).fcu = p.fcu ∧ (p.writeOn t i mask fields).scr = p.scr ∧ (p.writeOn t i
    mask fields).ltr = p.ltr ∧ (p.writeOn t i mask fields).sq = p.sq ∧ (p.writeOn t i mask fields).msh =
    p.msh ∧ (p.writeOn t i mask fields).dbm = p.dbm ∧ (p.writeOn t i mask fields).sin = p.sin ∧ (p.writeOn
    t i mask fields).hre = p.hre ∧ (p.writeOn t i mask fields).rtu = p.rtu ∧ (p.writeOn t i mask
    fields).tst.poisoned = p.tst.poisoned ∧ (p.writeOn t i mask fields).tst.mode = p.tst.mode ∧ (p.writeOn
    t i mask fields).tst.pattern = p.tst.pattern ∧ (p.writeOn t i mask fields).tst.capture = p.tst.capture
    ∧ (p.writeOn t i mask fields).tst.log = p.tst.log ∧ (p.writeOn t i mask fields).tst.scrubPointer =
    p.tst.scrubPointer ∧ (p.writeOn t i mask fields).tst.scrubTimer = p.tst.scrubTimer ∧ (p.writeOn t i
    mask fields).tst.scrubPeriod = p.tst.scrubPeriod ∧ (p.writeOn t i mask fields).tst.current =
    p.tst.current ∧ (p.writeOn t i mask fields).plp.hunt = p.plp.hunt ∧ (p.writeOn t i mask fields).plp.rx
    = p.plp.rx ∧ (p.writeOn t i mask fields).plp.restarting = p.plp.restarting ∧ (p.writeOn t i mask
    fields).plp.tx = p.plp.tx ∧ (p.writeOn t i mask fields).nco = p.nco ∧ (p.writeOn t i mask
    fields).agenda.blade = p.agenda.blade ∧ (p.writeOn t i mask fields).agenda.deferral =
    p.agenda.deferral ∧ (p.writeOn t i mask fields).agenda.removed = p.agenda.removed ∧ (p.writeOn t i
    mask fields).agenda.starved = p.agenda.starved ∧ (p.writeOn t i mask fields).agenda.returning =
    p.agenda.returning ∧ (p.writeOn t i mask fields).agenda.period = p.agenda.period ∧ (p.writeOn t i mask
    fields).agenda.walk = p.agenda.walk ∧ (p.writeOn t i mask fields).agenda.bus = p.agenda.bus ∧
    (p.writeOn t i mask fields).agenda.port = p.agenda.port ∧ (p.writeOn t i mask fields).agenda.held =
    p.agenda.held ∧ (p.writeOn t i mask fields).agenda.frames = p.agenda.frames ∧ (p.writeOn t i mask
    fields).clock = p.clock ∧ (p.writeOn t i mask fields).serial = p.serial ∧ (p.writeOn t i mask
    fields).free = p.free := by
  unfold Part.writeOn
  (try dsimp only)
  (repeat' split) <;> simp

@[simp] theorem Part.checkWrite_keeps (t : Table) (i : Nat) (mask : BitVec 64) (fields : List Int) (todo :
List WriteCheck) (p : Part) :
    (p.checkWrite t i mask fields todo).fcu = p.fcu ∧ (p.checkWrite t i mask fields todo).scr = p.scr ∧
    (p.checkWrite t i mask fields todo).ltr = p.ltr ∧ (p.checkWrite t i mask fields todo).sq = p.sq ∧
    (p.checkWrite t i mask fields todo).msh = p.msh ∧ (p.checkWrite t i mask fields todo).dbm = p.dbm ∧
    (p.checkWrite t i mask fields todo).sin = p.sin ∧ (p.checkWrite t i mask fields todo).hre = p.hre ∧
    (p.checkWrite t i mask fields todo).rtu = p.rtu ∧ (p.checkWrite t i mask fields todo).tst.poisoned =
    p.tst.poisoned ∧ (p.checkWrite t i mask fields todo).tst.mode = p.tst.mode ∧ (p.checkWrite t i mask
    fields todo).tst.pattern = p.tst.pattern ∧ (p.checkWrite t i mask fields todo).tst.capture =
    p.tst.capture ∧ (p.checkWrite t i mask fields todo).tst.log = p.tst.log ∧ (p.checkWrite t i mask
    fields todo).tst.scrubPointer = p.tst.scrubPointer ∧ (p.checkWrite t i mask fields
    todo).tst.scrubTimer = p.tst.scrubTimer ∧ (p.checkWrite t i mask fields todo).tst.scrubPeriod =
    p.tst.scrubPeriod ∧ (p.checkWrite t i mask fields todo).tst.current = p.tst.current ∧ (p.checkWrite t
    i mask fields todo).plp.hunt = p.plp.hunt ∧ (p.checkWrite t i mask fields todo).plp.restarting =
    p.plp.restarting ∧ (p.checkWrite t i mask fields todo).nco = p.nco ∧ (p.checkWrite t i mask fields
    todo).agenda.blade = p.agenda.blade ∧ (p.checkWrite t i mask fields todo).agenda.deferral =
    p.agenda.deferral ∧ (p.checkWrite t i mask fields todo).agenda.removed = p.agenda.removed ∧
    (p.checkWrite t i mask fields todo).agenda.starved = p.agenda.starved ∧ (p.checkWrite t i mask fields
    todo).agenda.returning = p.agenda.returning ∧ (p.checkWrite t i mask fields todo).agenda.period =
    p.agenda.period ∧ (p.checkWrite t i mask fields todo).agenda.walk = p.agenda.walk ∧ (p.checkWrite t i
    mask fields todo).agenda.bus = p.agenda.bus ∧ (p.checkWrite t i mask fields todo).agenda.held =
    p.agenda.held ∧ (p.checkWrite t i mask fields todo).agenda.frames = p.agenda.frames ∧ (p.checkWrite t
    i mask fields todo).clock = p.clock ∧ (p.checkWrite t i mask fields todo).serial = p.serial ∧
    (p.checkWrite t i mask fields todo).free = p.free := by
  unfold Part.checkWrite
  (try dsimp only)
  (repeat' split) <;> simp

@[simp] theorem Part.writeCheckRead_keeps (t : Table) (i : Nat) (mask : BitVec 64) (fields : List Int)
(todo : List WriteCheck) (result : Option (List Int)) (p : Part) :
    (p.writeCheckRead t i mask fields todo result).fcu = p.fcu ∧ (p.writeCheckRead t i mask fields todo
    result).scr = p.scr ∧ (p.writeCheckRead t i mask fields todo result).ltr = p.ltr ∧ (p.writeCheckRead t
    i mask fields todo result).sq = p.sq ∧ (p.writeCheckRead t i mask fields todo result).msh = p.msh ∧
    (p.writeCheckRead t i mask fields todo result).dbm = p.dbm ∧ (p.writeCheckRead t i mask fields todo
    result).sin = p.sin ∧ (p.writeCheckRead t i mask fields todo result).hre = p.hre ∧ (p.writeCheckRead t
    i mask fields todo result).rtu = p.rtu ∧ (p.writeCheckRead t i mask fields todo result).tst.poisoned =
    p.tst.poisoned ∧ (p.writeCheckRead t i mask fields todo result).tst.mode = p.tst.mode ∧
    (p.writeCheckRead t i mask fields todo result).tst.pattern = p.tst.pattern ∧ (p.writeCheckRead t i
    mask fields todo result).tst.capture = p.tst.capture ∧ (p.writeCheckRead t i mask fields todo
    result).tst.log = p.tst.log ∧ (p.writeCheckRead t i mask fields todo result).tst.scrubPointer =
    p.tst.scrubPointer ∧ (p.writeCheckRead t i mask fields todo result).tst.scrubTimer = p.tst.scrubTimer
    ∧ (p.writeCheckRead t i mask fields todo result).tst.scrubPeriod = p.tst.scrubPeriod ∧
    (p.writeCheckRead t i mask fields todo result).tst.current = p.tst.current ∧ (p.writeCheckRead t i
    mask fields todo result).plp.hunt = p.plp.hunt ∧ (p.writeCheckRead t i mask fields todo
    result).plp.restarting = p.plp.restarting ∧ (p.writeCheckRead t i mask fields todo result).nco = p.nco
    ∧ (p.writeCheckRead t i mask fields todo result).agenda.blade = p.agenda.blade ∧ (p.writeCheckRead t i
    mask fields todo result).agenda.deferral = p.agenda.deferral ∧ (p.writeCheckRead t i mask fields todo
    result).agenda.removed = p.agenda.removed ∧ (p.writeCheckRead t i mask fields todo
    result).agenda.starved = p.agenda.starved ∧ (p.writeCheckRead t i mask fields todo
    result).agenda.returning = p.agenda.returning ∧ (p.writeCheckRead t i mask fields todo
    result).agenda.period = p.agenda.period ∧ (p.writeCheckRead t i mask fields todo result).agenda.walk =
    p.agenda.walk ∧ (p.writeCheckRead t i mask fields todo result).agenda.bus = p.agenda.bus ∧
    (p.writeCheckRead t i mask fields todo result).agenda.held = p.agenda.held ∧ (p.writeCheckRead t i
    mask fields todo result).agenda.frames = p.agenda.frames ∧ (p.writeCheckRead t i mask fields todo
    result).clock = p.clock ∧ (p.writeCheckRead t i mask fields todo result).serial = p.serial ∧
    (p.writeCheckRead t i mask fields todo result).free = p.free := by
  unfold Part.writeCheckRead
  (try dsimp only)
  (repeat' split) <;> simp

@[simp] theorem Part.tableWrite_keeps (t : Table) (body : List Byte) (p : Part) :
    (p.tableWrite t body).fcu = p.fcu ∧ (p.tableWrite t body).scr = p.scr ∧ (p.tableWrite t body).ltr =
    p.ltr ∧ (p.tableWrite t body).sq = p.sq ∧ (p.tableWrite t body).msh = p.msh ∧ (p.tableWrite t
    body).dbm = p.dbm ∧ (p.tableWrite t body).sin = p.sin ∧ (p.tableWrite t body).hre = p.hre ∧
    (p.tableWrite t body).rtu = p.rtu ∧ (p.tableWrite t body).tst.poisoned = p.tst.poisoned ∧
    (p.tableWrite t body).tst.mode = p.tst.mode ∧ (p.tableWrite t body).tst.pattern = p.tst.pattern ∧
    (p.tableWrite t body).tst.capture = p.tst.capture ∧ (p.tableWrite t body).tst.log = p.tst.log ∧
    (p.tableWrite t body).tst.scrubPointer = p.tst.scrubPointer ∧ (p.tableWrite t body).tst.scrubTimer =
    p.tst.scrubTimer ∧ (p.tableWrite t body).tst.scrubPeriod = p.tst.scrubPeriod ∧ (p.tableWrite t
    body).tst.current = p.tst.current ∧ (p.tableWrite t body).plp.hunt = p.plp.hunt ∧ (p.tableWrite t
    body).plp.restarting = p.plp.restarting ∧ (p.tableWrite t body).nco = p.nco ∧ (p.tableWrite t
    body).agenda.blade = p.agenda.blade ∧ (p.tableWrite t body).agenda.deferral = p.agenda.deferral ∧
    (p.tableWrite t body).agenda.removed = p.agenda.removed ∧ (p.tableWrite t body).agenda.starved =
    p.agenda.starved ∧ (p.tableWrite t body).agenda.returning = p.agenda.returning ∧ (p.tableWrite t
    body).agenda.period = p.agenda.period ∧ (p.tableWrite t body).agenda.walk = p.agenda.walk ∧
    (p.tableWrite t body).agenda.bus = p.agenda.bus ∧ (p.tableWrite t body).agenda.held = p.agenda.held ∧
    (p.tableWrite t body).agenda.frames = p.agenda.frames ∧ (p.tableWrite t body).clock = p.clock ∧
    (p.tableWrite t body).serial = p.serial ∧ (p.tableWrite t body).free = p.free := by
  unfold Part.tableWrite
  (try dsimp only)
  (repeat' split) <;> simp

@[simp] theorem Part.tableRead_keeps (t : Table) (i : Nat) (p : Part) :
    (p.tableRead t i).fcu = p.fcu ∧ (p.tableRead t i).scr = p.scr ∧ (p.tableRead t i).ltr = p.ltr ∧
    (p.tableRead t i).sq = p.sq ∧ (p.tableRead t i).msh = p.msh ∧ (p.tableRead t i).dbm = p.dbm ∧
    (p.tableRead t i).sin = p.sin ∧ (p.tableRead t i).hre = p.hre ∧ (p.tableRead t i).rtu = p.rtu ∧
    (p.tableRead t i).tst.poisoned = p.tst.poisoned ∧ (p.tableRead t i).tst.mode = p.tst.mode ∧
    (p.tableRead t i).tst.pattern = p.tst.pattern ∧ (p.tableRead t i).tst.capture = p.tst.capture ∧
    (p.tableRead t i).tst.log = p.tst.log ∧ (p.tableRead t i).tst.scrubPointer = p.tst.scrubPointer ∧
    (p.tableRead t i).tst.scrubTimer = p.tst.scrubTimer ∧ (p.tableRead t i).tst.scrubPeriod =
    p.tst.scrubPeriod ∧ (p.tableRead t i).tst.current = p.tst.current ∧ (p.tableRead t i).plp.hunt =
    p.plp.hunt ∧ (p.tableRead t i).plp.restarting = p.plp.restarting ∧ (p.tableRead t i).nco = p.nco ∧
    (p.tableRead t i).agenda.blade = p.agenda.blade ∧ (p.tableRead t i).agenda.deferral =
    p.agenda.deferral ∧ (p.tableRead t i).agenda.removed = p.agenda.removed ∧ (p.tableRead t
    i).agenda.starved = p.agenda.starved ∧ (p.tableRead t i).agenda.returning = p.agenda.returning ∧
    (p.tableRead t i).agenda.period = p.agenda.period ∧ (p.tableRead t i).agenda.walk = p.agenda.walk ∧
    (p.tableRead t i).agenda.bus = p.agenda.bus ∧ (p.tableRead t i).agenda.held = p.agenda.held ∧
    (p.tableRead t i).agenda.frames = p.agenda.frames ∧ (p.tableRead t i).clock = p.clock ∧ (p.tableRead t
    i).serial = p.serial ∧ (p.tableRead t i).free = p.free := by
  unfold Part.tableRead
  (try dsimp only)
  (repeat' split) <;> simp

@[simp] theorem Part.tableReadDone_keeps (t : Table) (i : Nat) (result : Option (List Int)) (p : Part) :
    (p.tableReadDone t i result).fcu = p.fcu ∧ (p.tableReadDone t i result).scr = p.scr ∧ (p.tableReadDone
    t i result).ltr = p.ltr ∧ (p.tableReadDone t i result).sq = p.sq ∧ (p.tableReadDone t i result).msh =
    p.msh ∧ (p.tableReadDone t i result).dbm = p.dbm ∧ (p.tableReadDone t i result).sin = p.sin ∧
    (p.tableReadDone t i result).hre = p.hre ∧ (p.tableReadDone t i result).rtu = p.rtu ∧ (p.tableReadDone
    t i result).tst = p.tst ∧ (p.tableReadDone t i result).plp.hunt = p.plp.hunt ∧ (p.tableReadDone t i
    result).plp.restarting = p.plp.restarting ∧ (p.tableReadDone t i result).nco = p.nco ∧
    (p.tableReadDone t i result).agenda.blade = p.agenda.blade ∧ (p.tableReadDone t i
    result).agenda.deferral = p.agenda.deferral ∧ (p.tableReadDone t i result).agenda.removed =
    p.agenda.removed ∧ (p.tableReadDone t i result).agenda.starved = p.agenda.starved ∧ (p.tableReadDone t
    i result).agenda.returning = p.agenda.returning ∧ (p.tableReadDone t i result).agenda.period =
    p.agenda.period ∧ (p.tableReadDone t i result).agenda.walk = p.agenda.walk ∧ (p.tableReadDone t i
    result).agenda.bus = p.agenda.bus ∧ (p.tableReadDone t i result).agenda.store = p.agenda.store ∧
    (p.tableReadDone t i result).agenda.held = p.agenda.held ∧ (p.tableReadDone t i result).agenda.frames
    = p.agenda.frames ∧ (p.tableReadDone t i result).clock = p.clock ∧ (p.tableReadDone t i result).serial
    = p.serial ∧ (p.tableReadDone t i result).free = p.free := by
  unfold Part.tableReadDone
  (try dsimp only)
  (repeat' split) <;> simp

@[simp] theorem Part.controlStore_keeps (parts : Byte) (m : StoreMode) (pattern : Nat) (p : Part) :
    (p.controlStore parts m pattern).fcu = p.fcu ∧ (p.controlStore parts m pattern).scr = p.scr ∧
    (p.controlStore parts m pattern).ltr = p.ltr ∧ (p.controlStore parts m pattern).sq = p.sq ∧
    (p.controlStore parts m pattern).msh = p.msh ∧ (p.controlStore parts m pattern).dbm = p.dbm ∧
    (p.controlStore parts m pattern).sin = p.sin ∧ (p.controlStore parts m pattern).hre = p.hre ∧
    (p.controlStore parts m pattern).rtu = p.rtu ∧ (p.controlStore parts m pattern).plp.hunt = p.plp.hunt
    ∧ (p.controlStore parts m pattern).plp.restarting = p.plp.restarting ∧ (p.controlStore parts m
    pattern).nco = p.nco ∧ (p.controlStore parts m pattern).agenda.blade = p.agenda.blade ∧
    (p.controlStore parts m pattern).agenda.deferral = p.agenda.deferral ∧ (p.controlStore parts m
    pattern).agenda.removed = p.agenda.removed ∧ (p.controlStore parts m pattern).agenda.starved =
    p.agenda.starved ∧ (p.controlStore parts m pattern).agenda.returning = p.agenda.returning ∧
    (p.controlStore parts m pattern).agenda.period = p.agenda.period ∧ (p.controlStore parts m
    pattern).agenda.walk = p.agenda.walk ∧ (p.controlStore parts m pattern).agenda.bus = p.agenda.bus ∧
    (p.controlStore parts m pattern).agenda.store = p.agenda.store ∧ (p.controlStore parts m
    pattern).agenda.held = p.agenda.held ∧ (p.controlStore parts m pattern).agenda.frames =
    p.agenda.frames ∧ (p.controlStore parts m pattern).clock = p.clock ∧ (p.controlStore parts m
    pattern).serial = p.serial := by
  unfold Part.controlStore
  (try dsimp only)
  (repeat' split) <;> simp

@[simp] theorem Part.storeControl_keeps (parts mode pattern : Byte) (p : Part) :
    (p.storeControl parts mode pattern).fcu = p.fcu ∧ (p.storeControl parts mode pattern).scr = p.scr ∧
    (p.storeControl parts mode pattern).ltr = p.ltr ∧ (p.storeControl parts mode pattern).sq = p.sq ∧
    (p.storeControl parts mode pattern).msh = p.msh ∧ (p.storeControl parts mode pattern).dbm = p.dbm ∧
    (p.storeControl parts mode pattern).sin = p.sin ∧ (p.storeControl parts mode pattern).hre = p.hre ∧
    (p.storeControl parts mode pattern).rtu = p.rtu ∧ (p.storeControl parts mode pattern).plp.hunt =
    p.plp.hunt ∧ (p.storeControl parts mode pattern).plp.restarting = p.plp.restarting ∧ (p.storeControl
    parts mode pattern).nco = p.nco ∧ (p.storeControl parts mode pattern).agenda.blade = p.agenda.blade ∧
    (p.storeControl parts mode pattern).agenda.deferral = p.agenda.deferral ∧ (p.storeControl parts mode
    pattern).agenda.removed = p.agenda.removed ∧ (p.storeControl parts mode pattern).agenda.starved =
    p.agenda.starved ∧ (p.storeControl parts mode pattern).agenda.returning = p.agenda.returning ∧
    (p.storeControl parts mode pattern).agenda.period = p.agenda.period ∧ (p.storeControl parts mode
    pattern).agenda.walk = p.agenda.walk ∧ (p.storeControl parts mode pattern).agenda.bus = p.agenda.bus ∧
    (p.storeControl parts mode pattern).agenda.store = p.agenda.store ∧ (p.storeControl parts mode
    pattern).agenda.held = p.agenda.held ∧ (p.storeControl parts mode pattern).agenda.frames =
    p.agenda.frames ∧ (p.storeControl parts mode pattern).clock = p.clock ∧ (p.storeControl parts mode
    pattern).serial = p.serial := by
  unfold Part.storeControl
  (try dsimp only)
  (repeat' split) <;> simp

@[simp] theorem Part.collect_keeps (code : Byte) (p : Part) :
    (p.collect code).fcu = p.fcu ∧ (p.collect code).scr = p.scr ∧ (p.collect code).ltr = p.ltr ∧
    (p.collect code).sq = p.sq ∧ (p.collect code).msh = p.msh ∧ (p.collect code).dbm = p.dbm ∧ (p.collect
    code).sin = p.sin ∧ (p.collect code).hre = p.hre ∧ (p.collect code).rtu = p.rtu ∧ (p.collect code).tst
    = p.tst ∧ (p.collect code).plp.hunt = p.plp.hunt ∧ (p.collect code).plp.restarting = p.plp.restarting
    ∧ (p.collect code).nco.urgentLevel = p.nco.urgentLevel ∧ (p.collect code).agenda.blade =
    p.agenda.blade ∧ (p.collect code).agenda.deferral = p.agenda.deferral ∧ (p.collect
    code).agenda.removed = p.agenda.removed ∧ (p.collect code).agenda.starved = p.agenda.starved ∧
    (p.collect code).agenda.returning = p.agenda.returning ∧ (p.collect code).agenda.period =
    p.agenda.period ∧ (p.collect code).agenda.walk = p.agenda.walk ∧ (p.collect code).agenda.bus =
    p.agenda.bus ∧ (p.collect code).agenda.store = p.agenda.store ∧ (p.collect code).agenda.held =
    p.agenda.held ∧ (p.collect code).agenda.frames = p.agenda.frames ∧ (p.collect code).clock = p.clock ∧
    (p.collect code).serial = p.serial ∧ (p.collect code).free = p.free := by
  unfold Part.collect
  (try dsimp only)
  (repeat' split) <;> simp

@[simp] theorem Part.restartRequest_keeps (p : Part) :
    p.restartRequest.fcu = p.fcu ∧ p.restartRequest.scr = p.scr ∧ p.restartRequest.ltr = p.ltr ∧
    p.restartRequest.sq = p.sq ∧ p.restartRequest.msh = p.msh ∧ p.restartRequest.dbm = p.dbm ∧
    p.restartRequest.sin = p.sin ∧ p.restartRequest.hre = p.hre ∧ p.restartRequest.rtu = p.rtu ∧
    p.restartRequest.tst = p.tst ∧ p.restartRequest.plp.hunt = p.plp.hunt ∧ p.restartRequest.nco = p.nco ∧
    p.restartRequest.agenda.blade = p.agenda.blade ∧ p.restartRequest.agenda.deferral = p.agenda.deferral
    ∧ p.restartRequest.agenda.removed = p.agenda.removed ∧ p.restartRequest.agenda.starved =
    p.agenda.starved ∧ p.restartRequest.agenda.returning = p.agenda.returning ∧
    p.restartRequest.agenda.period = p.agenda.period ∧ p.restartRequest.agenda.walk = p.agenda.walk ∧
    p.restartRequest.agenda.bus = p.agenda.bus ∧ p.restartRequest.agenda.store = p.agenda.store ∧
    p.restartRequest.agenda.held = p.agenda.held ∧ p.restartRequest.agenda.frames = p.agenda.frames ∧
    p.restartRequest.clock = p.clock ∧ p.restartRequest.serial = p.serial ∧ p.restartRequest.free = p.free
    := by
  unfold Part.restartRequest
  (try dsimp only)
  (repeat' split) <;> simp

@[simp] theorem Part.handOver_keeps (kind : Nat) (body : List Byte) (p : Part) :
    (p.handOver kind body).fcu.keepSilent = p.fcu.keepSilent ∧ (p.handOver kind body).fcu.keepTimer =
    p.fcu.keepTimer ∧ (p.handOver kind body).fcu.keepLimit = p.fcu.keepLimit ∧ (p.handOver kind
    body).fcu.silentAction = p.fcu.silentAction ∧ (p.handOver kind body).fcu.zoneBladeMax =
    p.fcu.zoneBladeMax ∧ (p.handOver kind body).fcu.levelToSend = p.fcu.levelToSend ∧ (p.handOver kind
    body).scr = p.scr ∧ (p.handOver kind body).ltr = p.ltr ∧ (p.handOver kind body).sq.refillMark =
    p.sq.refillMark ∧ (p.handOver kind body).msh.source = p.msh.source ∧ (p.handOver kind
    body).msh.credited = p.msh.credited ∧ (p.handOver kind body).msh.wheels = p.msh.wheels ∧ (p.handOver
    kind body).msh.odometer = p.msh.odometer ∧ (p.handOver kind body).msh.odometerCarry =
    p.msh.odometerCarry ∧ (p.handOver kind body).msh.progressCarry = p.msh.progressCarry ∧ (p.handOver
    kind body).msh.periodTimer = p.msh.periodTimer ∧ (p.handOver kind body).msh.kilotick = p.msh.kilotick
    ∧ (p.handOver kind body).msh.maneuverSpeed = p.msh.maneuverSpeed
    ∧ (p.handOver kind body).dbm.bus = p.dbm.bus ∧ (p.handOver kind body).dbm.number = p.dbm.number ∧
    (p.handOver kind body).dbm.resetStops = p.dbm.resetStops ∧ (p.handOver kind body).dbm.responseLimit =
    p.dbm.responseLimit ∧ (p.handOver kind body).dbm.holdLimit = p.dbm.holdLimit ∧ (p.handOver kind
    body).sin = p.sin ∧ (p.handOver kind body).hre.queue = p.hre.queue ∧ (p.handOver kind body).hre.walk =
    p.hre.walk ∧ (p.handOver kind body).rtu.applying = p.rtu.applying ∧ (p.handOver kind body).rtu.params
    = p.rtu.params ∧ (p.handOver kind body).rtu.distance = p.rtu.distance ∧ (p.handOver kind
    body).rtu.dockKey = p.rtu.dockKey ∧ (p.handOver kind body).rtu.copies = p.rtu.copies ∧ (p.handOver
    kind body).plp.hunt = p.plp.hunt ∧ (p.handOver kind body).nco.urgentLevel = p.nco.urgentLevel ∧
    (p.handOver kind body).agenda.period = p.agenda.period ∧ (p.handOver kind body).agenda.walk =
    p.agenda.walk ∧ (p.handOver kind body).agenda.held = p.agenda.held ∧ (p.handOver kind
    body).agenda.frames = p.agenda.frames ∧ (p.handOver kind body).clock = p.clock := by
  unfold Part.handOver
  (try dsimp only)
  (repeat' split) <;> simp

@[simp] theorem Part.takeTable_keeps (isWrite : Bool) (body : List Byte) (p : Part) :
    (p.takeTable isWrite body).fcu = p.fcu ∧ (p.takeTable isWrite body).scr = p.scr ∧ (p.takeTable isWrite
    body).ltr = p.ltr ∧ (p.takeTable isWrite body).sq = p.sq ∧ (p.takeTable isWrite body).msh = p.msh ∧
    (p.takeTable isWrite body).dbm = p.dbm ∧ (p.takeTable isWrite body).sin = p.sin ∧ (p.takeTable isWrite
    body).hre = p.hre ∧ (p.takeTable isWrite body).rtu = p.rtu ∧ (p.takeTable isWrite body).tst.poisoned =
    p.tst.poisoned ∧ (p.takeTable isWrite body).tst.mode = p.tst.mode ∧ (p.takeTable isWrite
    body).tst.pattern = p.tst.pattern ∧ (p.takeTable isWrite body).tst.capture = p.tst.capture ∧
    (p.takeTable isWrite body).tst.log = p.tst.log ∧ (p.takeTable isWrite body).tst.scrubPointer =
    p.tst.scrubPointer ∧ (p.takeTable isWrite body).tst.scrubTimer = p.tst.scrubTimer ∧ (p.takeTable
    isWrite body).tst.scrubPeriod = p.tst.scrubPeriod ∧ (p.takeTable isWrite body).tst.current =
    p.tst.current ∧ (p.takeTable isWrite body).plp.hunt = p.plp.hunt ∧ (p.takeTable isWrite
    body).plp.restarting = p.plp.restarting ∧ (p.takeTable isWrite body).nco = p.nco ∧ (p.takeTable
    isWrite body).agenda.blade = p.agenda.blade ∧ (p.takeTable isWrite body).agenda.deferral =
    p.agenda.deferral ∧ (p.takeTable isWrite body).agenda.removed = p.agenda.removed ∧ (p.takeTable
    isWrite body).agenda.starved = p.agenda.starved ∧ (p.takeTable isWrite body).agenda.returning =
    p.agenda.returning ∧ (p.takeTable isWrite body).agenda.period = p.agenda.period ∧ (p.takeTable isWrite
    body).agenda.walk = p.agenda.walk ∧ (p.takeTable isWrite body).agenda.bus = p.agenda.bus ∧
    (p.takeTable isWrite body).agenda.held = p.agenda.held ∧ (p.takeTable isWrite body).agenda.frames =
    p.agenda.frames ∧ (p.takeTable isWrite body).clock = p.clock ∧ (p.takeTable isWrite body).serial =
    p.serial ∧ (p.takeTable isWrite body).free = p.free := by
  unfold Part.takeTable
  (try dsimp only)
  (repeat' split) <;> simp

@[simp] theorem Part.takeFrame_keeps (kind : Byte) (body : List Byte) (p : Part) :
    (p.takeFrame kind body).fcu.keepSilent = p.fcu.keepSilent ∧ (p.takeFrame kind body).fcu.keepTimer =
    p.fcu.keepTimer ∧ (p.takeFrame kind body).fcu.keepLimit = p.fcu.keepLimit ∧ (p.takeFrame kind
    body).fcu.silentAction = p.fcu.silentAction ∧ (p.takeFrame kind body).fcu.zoneBladeMax =
    p.fcu.zoneBladeMax ∧ (p.takeFrame kind body).fcu.levelToSend = p.fcu.levelToSend ∧ (p.takeFrame kind
    body).scr = p.scr ∧ (p.takeFrame kind body).ltr = p.ltr ∧ (p.takeFrame kind body).sq.refillMark =
    p.sq.refillMark ∧ (p.takeFrame kind body).msh.source = p.msh.source ∧ (p.takeFrame kind
    body).msh.credited = p.msh.credited ∧ (p.takeFrame kind body).msh.wheels = p.msh.wheels ∧ (p.takeFrame
    kind body).msh.odometer = p.msh.odometer ∧ (p.takeFrame kind body).msh.odometerCarry =
    p.msh.odometerCarry ∧ (p.takeFrame kind body).msh.progressCarry = p.msh.progressCarry ∧ (p.takeFrame
    kind body).msh.periodTimer = p.msh.periodTimer ∧ (p.takeFrame kind body).msh.kilotick =
    p.msh.kilotick ∧ (p.takeFrame kind body).msh.maneuverSpeed = p.msh.maneuverSpeed
    ∧ (p.takeFrame kind body).dbm.bus = p.dbm.bus ∧ (p.takeFrame kind body).dbm.number = p.dbm.number ∧
    (p.takeFrame kind body).dbm.resetStops = p.dbm.resetStops ∧ (p.takeFrame kind body).dbm.responseLimit
    = p.dbm.responseLimit ∧ (p.takeFrame kind body).dbm.holdLimit = p.dbm.holdLimit ∧ (p.takeFrame kind
    body).sin = p.sin ∧ (p.takeFrame kind body).hre.queue = p.hre.queue ∧ (p.takeFrame kind body).hre.walk
    = p.hre.walk ∧ (p.takeFrame kind body).rtu.applying = p.rtu.applying ∧ (p.takeFrame kind
    body).rtu.params = p.rtu.params ∧ (p.takeFrame kind body).rtu.distance = p.rtu.distance ∧ (p.takeFrame
    kind body).rtu.dockKey = p.rtu.dockKey ∧ (p.takeFrame kind body).rtu.copies = p.rtu.copies ∧
    (p.takeFrame kind body).plp.hunt = p.plp.hunt ∧ (p.takeFrame kind body).nco.urgentLevel =
    p.nco.urgentLevel ∧ (p.takeFrame kind body).agenda.period = p.agenda.period ∧ (p.takeFrame kind
    body).agenda.walk = p.agenda.walk ∧ (p.takeFrame kind body).agenda.held = p.agenda.held ∧ (p.takeFrame
    kind body).agenda.frames = p.agenda.frames ∧ (p.takeFrame kind body).clock = p.clock := by
  unfold Part.takeFrame
  (try dsimp only)
  (repeat' split) <;> simp

@[simp] theorem Part.frameArrived_keeps (f : LinkFrame) (p : Part) :
    (p.frameArrived f).fcu.mode = p.fcu.mode ∧ (p.frameArrived f).fcu.resume = p.fcu.resume ∧
    (p.frameArrived f).fcu.stopCause = p.fcu.stopCause ∧ (p.frameArrived f).fcu.hazardLevel =
    p.fcu.hazardLevel ∧ (p.frameArrived f).fcu.blade = p.fcu.blade ∧ (p.frameArrived f).fcu.armRefused =
    p.fcu.armRefused ∧ (p.frameArrived f).fcu.permission = p.fcu.permission ∧ (p.frameArrived
    f).fcu.keepLimit = p.fcu.keepLimit ∧ (p.frameArrived f).fcu.silentAction = p.fcu.silentAction ∧
    (p.frameArrived f).fcu.zoneBladeMax = p.fcu.zoneBladeMax ∧ (p.frameArrived f).fcu.levelToSend =
    p.fcu.levelToSend ∧ (p.frameArrived f).scr = p.scr ∧ (p.frameArrived f).ltr = p.ltr ∧ (p.frameArrived
    f).sq = p.sq ∧ (p.frameArrived f).msh = p.msh ∧ (p.frameArrived f).dbm = p.dbm ∧ (p.frameArrived
    f).sin = p.sin ∧ (p.frameArrived f).hre = p.hre ∧ (p.frameArrived f).rtu = p.rtu ∧ (p.frameArrived
    f).tst = p.tst ∧ (p.frameArrived f).plp.hunt = p.plp.hunt ∧ (p.frameArrived f).plp.op = p.plp.op ∧
    (p.frameArrived f).plp.restarting = p.plp.restarting ∧ (p.frameArrived f).nco.urgentLevel =
    p.nco.urgentLevel ∧ (p.frameArrived f).agenda.blade = p.agenda.blade ∧ (p.frameArrived
    f).agenda.deferral = p.agenda.deferral ∧ (p.frameArrived f).agenda.removed = p.agenda.removed ∧
    (p.frameArrived f).agenda.starved = p.agenda.starved ∧ (p.frameArrived f).agenda.returning =
    p.agenda.returning ∧ (p.frameArrived f).agenda.period = p.agenda.period ∧ (p.frameArrived
    f).agenda.walk = p.agenda.walk ∧ (p.frameArrived f).agenda.bus = p.agenda.bus ∧ (p.frameArrived
    f).agenda.store = p.agenda.store ∧ (p.frameArrived f).agenda.held = p.agenda.held ∧ (p.frameArrived
    f).agenda.frames = p.agenda.frames ∧ (p.frameArrived f).clock = p.clock ∧ (p.frameArrived f).serial =
    p.serial ∧ (p.frameArrived f).free = p.free := by
  unfold Part.frameArrived
  (try dsimp only)
  (repeat' split) <;> simp

@[simp] theorem Part.loseNode_keeps (n : Fin 3) (p : Part) :
    (p.loseNode n).fcu.armRefused = p.fcu.armRefused ∧ (p.loseNode n).fcu.keepSilent = p.fcu.keepSilent ∧
    (p.loseNode n).fcu.keepTimer = p.fcu.keepTimer ∧ (p.loseNode n).fcu.keepLimit = p.fcu.keepLimit ∧
    (p.loseNode n).fcu.silentAction = p.fcu.silentAction ∧ (p.loseNode n).fcu.zoneBladeMax =
    p.fcu.zoneBladeMax ∧ (p.loseNode n).fcu.levelToSend = p.fcu.levelToSend ∧ (p.loseNode n).scr = p.scr ∧
    (p.loseNode n).ltr = p.ltr ∧ (p.loseNode n).sq.refillArmed = p.sq.refillArmed ∧ (p.loseNode
    n).sq.starvedArmed = p.sq.starvedArmed ∧ (p.loseNode n).sq.refillMark = p.sq.refillMark ∧ (p.loseNode
    n).msh.source = p.msh.source ∧ (p.loseNode n).msh.credited = p.msh.credited ∧ (p.loseNode
    n).msh.wheels = p.msh.wheels ∧ (p.loseNode n).msh.odometer = p.msh.odometer ∧ (p.loseNode
    n).msh.odometerCarry = p.msh.odometerCarry ∧ (p.loseNode n).msh.progress = p.msh.progress ∧
    (p.loseNode n).msh.progressCarry = p.msh.progressCarry ∧ (p.loseNode n).msh.periodTimer =
    p.msh.periodTimer ∧ (p.loseNode n).msh.kilotick = p.msh.kilotick ∧ (p.loseNode n).msh.maneuverSpeed =
    p.msh.maneuverSpeed ∧ (p.loseNode n).dbm.number =
    p.dbm.number ∧ (p.loseNode n).dbm.responseLimit = p.dbm.responseLimit ∧ (p.loseNode n).dbm.holdLimit =
    p.dbm.holdLimit ∧ (p.loseNode n).sin = p.sin ∧ (p.loseNode n).hre.queue = p.hre.queue ∧ (p.loseNode
    n).hre.walk = p.hre.walk ∧ (p.loseNode n).rtu.applying = p.rtu.applying ∧ (p.loseNode n).rtu.params =
    p.rtu.params ∧ (p.loseNode n).rtu.distance = p.rtu.distance ∧ (p.loseNode n).rtu.dockKey =
    p.rtu.dockKey ∧ (p.loseNode n).rtu.copies = p.rtu.copies ∧ (p.loseNode n).tst.poisoned =
    p.tst.poisoned ∧ (p.loseNode n).tst.mode = p.tst.mode ∧ (p.loseNode n).tst.pattern = p.tst.pattern ∧
    (p.loseNode n).tst.capture = p.tst.capture ∧ (p.loseNode n).tst.log = p.tst.log ∧ (p.loseNode
    n).tst.scrubPointer = p.tst.scrubPointer ∧ (p.loseNode n).tst.scrubTimer = p.tst.scrubTimer ∧
    (p.loseNode n).tst.scrubPeriod = p.tst.scrubPeriod ∧ (p.loseNode n).plp.hunt = p.plp.hunt ∧
    (p.loseNode n).plp.rx = p.plp.rx ∧ (p.loseNode n).plp.op = p.plp.op ∧ (p.loseNode n).plp.restarting =
    p.plp.restarting ∧ (p.loseNode n).nco.urgentLevel = p.nco.urgentLevel ∧ (p.loseNode n).agenda.period =
    p.agenda.period ∧ (p.loseNode n).agenda.walk = p.agenda.walk ∧ (p.loseNode n).agenda.store =
    p.agenda.store ∧ (p.loseNode n).agenda.port = p.agenda.port ∧ (p.loseNode n).agenda.held =
    p.agenda.held ∧ (p.loseNode n).agenda.frames = p.agenda.frames ∧ (p.loseNode n).clock = p.clock ∧
    (p.loseNode n).serial = p.serial ∧ (p.loseNode n).free = p.free := by
  unfold Part.loseNode
  (try dsimp only)
  (repeat' split) <;> simp

@[simp] theorem Part.nodeOnline_keeps (n : Fin 3) (p : Part) :
    (p.nodeOnline n).fcu = p.fcu ∧ (p.nodeOnline n).scr = p.scr ∧ (p.nodeOnline n).ltr = p.ltr ∧
    (p.nodeOnline n).sq = p.sq ∧ (p.nodeOnline n).msh = p.msh ∧ (p.nodeOnline n).dbm.bus = p.dbm.bus ∧
    (p.nodeOnline n).dbm.interlock = p.dbm.interlock ∧ (p.nodeOnline n).dbm.number = p.dbm.number ∧
    (p.nodeOnline n).dbm.resetStops = p.dbm.resetStops ∧ (p.nodeOnline n).dbm.responseLimit =
    p.dbm.responseLimit ∧ (p.nodeOnline n).dbm.holdLimit = p.dbm.holdLimit ∧ (p.nodeOnline n).sin = p.sin
    ∧ (p.nodeOnline n).hre = p.hre ∧ (p.nodeOnline n).rtu = p.rtu ∧ (p.nodeOnline n).tst = p.tst ∧
    (p.nodeOnline n).plp.hunt = p.plp.hunt ∧ (p.nodeOnline n).plp.rx = p.plp.rx ∧ (p.nodeOnline n).plp.op
    = p.plp.op ∧ (p.nodeOnline n).plp.restarting = p.plp.restarting ∧ (p.nodeOnline n).nco.urgentLevel =
    p.nco.urgentLevel ∧ (p.nodeOnline n).agenda = p.agenda ∧ (p.nodeOnline n).clock = p.clock ∧
    (p.nodeOnline n).serial = p.serial ∧ (p.nodeOnline n).free = p.free := by
  unfold Part.nodeOnline
  (try dsimp only)
  (repeat' split) <;> simp

@[simp] theorem Part.nodeHolding_keeps (n : Fin 3) (p : Part) :
    (p.nodeHolding n).fcu = p.fcu ∧ (p.nodeHolding n).scr = p.scr ∧ (p.nodeHolding n).ltr = p.ltr ∧
    (p.nodeHolding n).sq = p.sq ∧ (p.nodeHolding n).msh = p.msh ∧ (p.nodeHolding n).dbm.bus = p.dbm.bus ∧
    (p.nodeHolding n).dbm.interlock = p.dbm.interlock ∧ (p.nodeHolding n).dbm.number = p.dbm.number ∧
    (p.nodeHolding n).dbm.resetStops = p.dbm.resetStops ∧ (p.nodeHolding n).dbm.responseLimit =
    p.dbm.responseLimit ∧ (p.nodeHolding n).dbm.holdLimit = p.dbm.holdLimit ∧ (p.nodeHolding n).sin =
    p.sin ∧ (p.nodeHolding n).hre = p.hre ∧ (p.nodeHolding n).rtu = p.rtu ∧ (p.nodeHolding n).tst = p.tst
    ∧ (p.nodeHolding n).plp.hunt = p.plp.hunt ∧ (p.nodeHolding n).plp.rx = p.plp.rx ∧ (p.nodeHolding
    n).plp.op = p.plp.op ∧ (p.nodeHolding n).plp.restarting = p.plp.restarting ∧ (p.nodeHolding
    n).nco.urgentLevel = p.nco.urgentLevel ∧ (p.nodeHolding n).agenda = p.agenda ∧ (p.nodeHolding n).clock
    = p.clock ∧ (p.nodeHolding n).serial = p.serial ∧ (p.nodeHolding n).free = p.free := by
  unfold Part.nodeHolding
  (try dsimp only)
  (repeat' split) <;> simp

@[simp] theorem Part.holdExchange_keeps (n : Fin 3) (p : Part) :
    (p.holdExchange n).fcu.armRefused = p.fcu.armRefused ∧ (p.holdExchange n).fcu.keepSilent =
    p.fcu.keepSilent ∧ (p.holdExchange n).fcu.keepTimer = p.fcu.keepTimer ∧ (p.holdExchange
    n).fcu.keepLimit = p.fcu.keepLimit ∧ (p.holdExchange n).fcu.silentAction = p.fcu.silentAction ∧
    (p.holdExchange n).fcu.zoneBladeMax = p.fcu.zoneBladeMax ∧ (p.holdExchange n).fcu.levelToSend =
    p.fcu.levelToSend ∧ (p.holdExchange n).scr = p.scr ∧ (p.holdExchange n).ltr = p.ltr ∧ (p.holdExchange
    n).sq.refillArmed = p.sq.refillArmed ∧ (p.holdExchange n).sq.starvedArmed = p.sq.starvedArmed ∧
    (p.holdExchange n).sq.refillMark = p.sq.refillMark ∧ (p.holdExchange n).msh.source = p.msh.source ∧
    (p.holdExchange n).msh.credited = p.msh.credited ∧ (p.holdExchange n).msh.wheels = p.msh.wheels ∧
    (p.holdExchange n).msh.odometer = p.msh.odometer ∧ (p.holdExchange n).msh.odometerCarry =
    p.msh.odometerCarry ∧ (p.holdExchange n).msh.progress = p.msh.progress ∧ (p.holdExchange
    n).msh.progressCarry = p.msh.progressCarry ∧ (p.holdExchange n).msh.periodTimer = p.msh.periodTimer ∧
    (p.holdExchange n).msh.kilotick = p.msh.kilotick ∧ (p.holdExchange n).msh.maneuverSpeed =
    p.msh.maneuverSpeed ∧ (p.holdExchange n).dbm.number = p.dbm.number ∧
    (p.holdExchange n).dbm.responseLimit = p.dbm.responseLimit ∧ (p.holdExchange n).dbm.holdLimit =
    p.dbm.holdLimit ∧ (p.holdExchange n).sin = p.sin ∧ (p.holdExchange n).hre.queue = p.hre.queue ∧
    (p.holdExchange n).hre.walk = p.hre.walk ∧ (p.holdExchange n).rtu.applying = p.rtu.applying ∧
    (p.holdExchange n).rtu.params = p.rtu.params ∧ (p.holdExchange n).rtu.distance = p.rtu.distance ∧
    (p.holdExchange n).rtu.dockKey = p.rtu.dockKey ∧ (p.holdExchange n).rtu.copies = p.rtu.copies ∧
    (p.holdExchange n).tst.poisoned = p.tst.poisoned ∧ (p.holdExchange n).tst.mode = p.tst.mode ∧
    (p.holdExchange n).tst.pattern = p.tst.pattern ∧ (p.holdExchange n).tst.capture = p.tst.capture ∧
    (p.holdExchange n).tst.log = p.tst.log ∧ (p.holdExchange n).tst.scrubPointer = p.tst.scrubPointer ∧
    (p.holdExchange n).tst.scrubTimer = p.tst.scrubTimer ∧ (p.holdExchange n).tst.scrubPeriod =
    p.tst.scrubPeriod ∧ (p.holdExchange n).plp.hunt = p.plp.hunt ∧ (p.holdExchange n).plp.rx = p.plp.rx ∧
    (p.holdExchange n).plp.op = p.plp.op ∧ (p.holdExchange n).plp.restarting = p.plp.restarting ∧
    (p.holdExchange n).nco.urgentLevel = p.nco.urgentLevel ∧ (p.holdExchange n).agenda.period =
    p.agenda.period ∧ (p.holdExchange n).agenda.walk = p.agenda.walk ∧ (p.holdExchange n).agenda.store =
    p.agenda.store ∧ (p.holdExchange n).agenda.port = p.agenda.port ∧ (p.holdExchange n).agenda.held =
    p.agenda.held ∧ (p.holdExchange n).agenda.frames = p.agenda.frames ∧ (p.holdExchange n).clock =
    p.clock ∧ (p.holdExchange n).serial = p.serial ∧ (p.holdExchange n).free = p.free := by
  unfold Part.holdExchange
  (try dsimp only)
  (repeat' split) <;> simp

@[simp] theorem Part.armAtMidpoint_keeps (p : Part) :
    p.armAtMidpoint.fcu.mode = p.fcu.mode ∧ p.armAtMidpoint.fcu.resume = p.fcu.resume ∧
    p.armAtMidpoint.fcu.stopCause = p.fcu.stopCause ∧ p.armAtMidpoint.fcu.hazardLevel = p.fcu.hazardLevel
    ∧ p.armAtMidpoint.fcu.armRefused = p.fcu.armRefused ∧ p.armAtMidpoint.fcu.permission =
    p.fcu.permission ∧ p.armAtMidpoint.fcu.keepSilent = p.fcu.keepSilent ∧ p.armAtMidpoint.fcu.keepTimer =
    p.fcu.keepTimer ∧ p.armAtMidpoint.fcu.keepLimit = p.fcu.keepLimit ∧ p.armAtMidpoint.fcu.silentAction =
    p.fcu.silentAction ∧ p.armAtMidpoint.fcu.zoneBladeMax = p.fcu.zoneBladeMax ∧
    p.armAtMidpoint.fcu.levelToSend = p.fcu.levelToSend ∧ p.armAtMidpoint.scr = p.scr ∧
    p.armAtMidpoint.ltr = p.ltr ∧ p.armAtMidpoint.sq = p.sq ∧ p.armAtMidpoint.msh = p.msh ∧
    p.armAtMidpoint.dbm.number = p.dbm.number ∧ p.armAtMidpoint.dbm.resetStops = p.dbm.resetStops ∧
    p.armAtMidpoint.dbm.responseLimit = p.dbm.responseLimit ∧ p.armAtMidpoint.dbm.holdLimit =
    p.dbm.holdLimit ∧ p.armAtMidpoint.sin = p.sin ∧ p.armAtMidpoint.hre = p.hre ∧ p.armAtMidpoint.rtu =
    p.rtu ∧ p.armAtMidpoint.tst = p.tst ∧ p.armAtMidpoint.plp = p.plp ∧ p.armAtMidpoint.nco = p.nco ∧
    p.armAtMidpoint.agenda.deferral = p.agenda.deferral ∧ p.armAtMidpoint.agenda.removed =
    p.agenda.removed ∧ p.armAtMidpoint.agenda.starved = p.agenda.starved ∧
    p.armAtMidpoint.agenda.returning = p.agenda.returning ∧ p.armAtMidpoint.agenda.period =
    p.agenda.period ∧ p.armAtMidpoint.agenda.walk = p.agenda.walk ∧ p.armAtMidpoint.agenda.store =
    p.agenda.store ∧ p.armAtMidpoint.agenda.port = p.agenda.port ∧ p.armAtMidpoint.agenda.held =
    p.agenda.held ∧ p.armAtMidpoint.agenda.frames = p.agenda.frames ∧ p.armAtMidpoint.clock = p.clock ∧
    p.armAtMidpoint.serial = p.serial ∧ p.armAtMidpoint.free = p.free := by
  unfold Part.armAtMidpoint
  (try dsimp only)
  (repeat' split) <;> simp

@[simp] theorem Part.armEnded_keeps (p : Part) :
    p.armEnded.fcu = p.fcu ∧ p.armEnded.scr = p.scr ∧ p.armEnded.ltr = p.ltr ∧ p.armEnded.sq = p.sq ∧
    p.armEnded.msh = p.msh ∧ p.armEnded.dbm.number = p.dbm.number ∧ p.armEnded.dbm.resetStops =
    p.dbm.resetStops ∧ p.armEnded.dbm.responseLimit = p.dbm.responseLimit ∧ p.armEnded.dbm.holdLimit =
    p.dbm.holdLimit ∧ p.armEnded.sin = p.sin ∧ p.armEnded.hre = p.hre ∧ p.armEnded.rtu = p.rtu ∧
    p.armEnded.tst = p.tst ∧ p.armEnded.plp = p.plp ∧ p.armEnded.nco = p.nco ∧ p.armEnded.agenda =
    p.agenda ∧ p.armEnded.clock = p.clock ∧ p.armEnded.serial = p.serial ∧ p.armEnded.free = p.free := by
  unfold Part.armEnded
  (try dsimp only)
  (repeat' split) <;> simp

@[simp] theorem Part.midpoint_keeps (level : Nat) (p : Part) :
    (p.midpoint level).fcu.mode = p.fcu.mode ∧ (p.midpoint level).fcu.resume = p.fcu.resume ∧ (p.midpoint
    level).fcu.stopCause = p.fcu.stopCause ∧ (p.midpoint level).fcu.hazardLevel = p.fcu.hazardLevel ∧
    (p.midpoint level).fcu.armRefused = p.fcu.armRefused ∧ (p.midpoint level).fcu.permission =
    p.fcu.permission ∧ (p.midpoint level).fcu.keepSilent = p.fcu.keepSilent ∧ (p.midpoint
    level).fcu.keepTimer = p.fcu.keepTimer ∧ (p.midpoint level).fcu.keepLimit = p.fcu.keepLimit ∧
    (p.midpoint level).fcu.silentAction = p.fcu.silentAction ∧ (p.midpoint level).fcu.zoneBladeMax =
    p.fcu.zoneBladeMax ∧ (p.midpoint level).fcu.levelToSend = p.fcu.levelToSend ∧ (p.midpoint level).scr =
    p.scr ∧ (p.midpoint level).ltr = p.ltr ∧ (p.midpoint level).sq = p.sq ∧ (p.midpoint level).msh = p.msh
    ∧ (p.midpoint level).dbm.resetStops = p.dbm.resetStops ∧ (p.midpoint level).dbm.responseLimit =
    p.dbm.responseLimit ∧ (p.midpoint level).dbm.holdLimit = p.dbm.holdLimit ∧ (p.midpoint level).sin =
    p.sin ∧ (p.midpoint level).hre = p.hre ∧ (p.midpoint level).rtu = p.rtu ∧ (p.midpoint level).tst =
    p.tst ∧ (p.midpoint level).plp = p.plp ∧ (p.midpoint level).nco = p.nco ∧ (p.midpoint
    level).agenda.deferral = p.agenda.deferral ∧ (p.midpoint level).agenda.removed = p.agenda.removed ∧
    (p.midpoint level).agenda.starved = p.agenda.starved ∧ (p.midpoint level).agenda.returning =
    p.agenda.returning ∧ (p.midpoint level).agenda.period = p.agenda.period ∧ (p.midpoint
    level).agenda.walk = p.agenda.walk ∧ (p.midpoint level).agenda.store = p.agenda.store ∧ (p.midpoint
    level).agenda.port = p.agenda.port ∧ (p.midpoint level).agenda.held = p.agenda.held ∧ (p.midpoint
    level).agenda.frames = p.agenda.frames ∧ (p.midpoint level).clock = p.clock ∧ (p.midpoint
    level).serial = p.serial ∧ (p.midpoint level).free = p.free := by
  unfold Part.midpoint
  (try dsimp only)
  (repeat' split) <;> simp

@[simp] theorem Part.driveFault_keeps (n : Fin 3) (code : Nat) (p : Part) :
    (p.driveFault n code).fcu = p.fcu ∧ (p.driveFault n code).scr = p.scr ∧ (p.driveFault n code).ltr =
    p.ltr ∧ (p.driveFault n code).sq = p.sq ∧ (p.driveFault n code).msh = p.msh ∧ (p.driveFault n
    code).dbm = p.dbm ∧ (p.driveFault n code).sin = p.sin ∧ (p.driveFault n code).hre.walk = p.hre.walk ∧
    (p.driveFault n code).hre.active = p.hre.active ∧ (p.driveFault n code).hre.pending = p.hre.pending ∧
    (p.driveFault n code).rtu = p.rtu ∧ (p.driveFault n code).tst = p.tst ∧ (p.driveFault n code).plp =
    p.plp ∧ (p.driveFault n code).nco = p.nco ∧ (p.driveFault n code).agenda.blade = p.agenda.blade ∧
    (p.driveFault n code).agenda.deferral = p.agenda.deferral ∧ (p.driveFault n code).agenda.removed =
    p.agenda.removed ∧ (p.driveFault n code).agenda.starved = p.agenda.starved ∧ (p.driveFault n
    code).agenda.returning = p.agenda.returning ∧ (p.driveFault n code).agenda.period = p.agenda.period ∧
    (p.driveFault n code).agenda.bus = p.agenda.bus ∧ (p.driveFault n code).agenda.store = p.agenda.store
    ∧ (p.driveFault n code).agenda.port = p.agenda.port ∧ (p.driveFault n code).agenda.held =
    p.agenda.held ∧ (p.driveFault n code).agenda.frames = p.agenda.frames ∧ (p.driveFault n code).clock =
    p.clock ∧ (p.driveFault n code).serial = p.serial ∧ (p.driveFault n code).free = p.free := by
  unfold Part.driveFault
  (try dsimp only)
  (repeat' split) <;> simp

@[simp] theorem Part.judgeLookahead_keeps (a : NodeAnswer) (p : Part) :
    (p.judgeLookahead a).fcu = p.fcu ∧ (p.judgeLookahead a).scr = p.scr ∧ (p.judgeLookahead a).ltr = p.ltr
    ∧ (p.judgeLookahead a).sq = p.sq ∧ (p.judgeLookahead a).msh = p.msh ∧ (p.judgeLookahead a).dbm.bus =
    p.dbm.bus ∧ (p.judgeLookahead a).dbm.interlock = p.dbm.interlock ∧ (p.judgeLookahead a).dbm.number =
    p.dbm.number ∧ (p.judgeLookahead a).dbm.resetStops = p.dbm.resetStops ∧ (p.judgeLookahead
    a).dbm.responseLimit = p.dbm.responseLimit ∧ (p.judgeLookahead a).dbm.holdLimit = p.dbm.holdLimit ∧
    (p.judgeLookahead a).sin = p.sin ∧ (p.judgeLookahead a).hre = p.hre ∧ (p.judgeLookahead a).rtu = p.rtu
    ∧ (p.judgeLookahead a).tst = p.tst ∧ (p.judgeLookahead a).plp = p.plp ∧ (p.judgeLookahead a).nco =
    p.nco ∧ (p.judgeLookahead a).agenda = p.agenda ∧ (p.judgeLookahead a).clock = p.clock ∧
    (p.judgeLookahead a).serial = p.serial ∧ (p.judgeLookahead a).free = p.free := by
  unfold Part.judgeLookahead
  (try dsimp only)
  (repeat' split) <;> simp

@[simp] theorem Part.answerYield_keeps (n : Fin 3) (p : Part) :
    (p.answerYield n).fcu.armRefused = p.fcu.armRefused ∧ (p.answerYield n).fcu.keepSilent =
    p.fcu.keepSilent ∧ (p.answerYield n).fcu.keepTimer = p.fcu.keepTimer ∧ (p.answerYield n).fcu.keepLimit
    = p.fcu.keepLimit ∧ (p.answerYield n).fcu.silentAction = p.fcu.silentAction ∧ (p.answerYield
    n).fcu.zoneBladeMax = p.fcu.zoneBladeMax ∧ (p.answerYield n).fcu.levelToSend = p.fcu.levelToSend ∧
    (p.answerYield n).scr = p.scr ∧ (p.answerYield n).ltr = p.ltr ∧ (p.answerYield n).sq.refillArmed =
    p.sq.refillArmed ∧ (p.answerYield n).sq.starvedArmed = p.sq.starvedArmed ∧ (p.answerYield
    n).sq.refillMark = p.sq.refillMark ∧ (p.answerYield n).msh.source = p.msh.source ∧ (p.answerYield
    n).msh.credited = p.msh.credited ∧ (p.answerYield n).msh.wheels = p.msh.wheels ∧ (p.answerYield
    n).msh.odometer = p.msh.odometer ∧ (p.answerYield n).msh.odometerCarry = p.msh.odometerCarry ∧
    (p.answerYield n).msh.progress = p.msh.progress ∧ (p.answerYield n).msh.progressCarry =
    p.msh.progressCarry ∧ (p.answerYield n).msh.periodTimer = p.msh.periodTimer ∧ (p.answerYield
    n).msh.kilotick = p.msh.kilotick ∧ (p.answerYield
    n).msh.maneuverSpeed = p.msh.maneuverSpeed ∧ (p.answerYield n).dbm.number = p.dbm.number ∧
    (p.answerYield
    n).dbm.responseLimit = p.dbm.responseLimit ∧ (p.answerYield n).dbm.holdLimit = p.dbm.holdLimit ∧
    (p.answerYield n).sin = p.sin ∧ (p.answerYield n).hre.queue = p.hre.queue ∧ (p.answerYield n).hre.walk
    = p.hre.walk ∧ (p.answerYield n).rtu.applying = p.rtu.applying ∧ (p.answerYield n).rtu.params =
    p.rtu.params ∧ (p.answerYield n).rtu.distance = p.rtu.distance ∧ (p.answerYield n).rtu.dockKey =
    p.rtu.dockKey ∧ (p.answerYield n).rtu.copies = p.rtu.copies ∧ (p.answerYield n).tst.poisoned =
    p.tst.poisoned ∧ (p.answerYield n).tst.mode = p.tst.mode ∧ (p.answerYield n).tst.pattern =
    p.tst.pattern ∧ (p.answerYield n).tst.capture = p.tst.capture ∧ (p.answerYield n).tst.log = p.tst.log
    ∧ (p.answerYield n).tst.scrubPointer = p.tst.scrubPointer ∧ (p.answerYield n).tst.scrubTimer =
    p.tst.scrubTimer ∧ (p.answerYield n).tst.scrubPeriod = p.tst.scrubPeriod ∧ (p.answerYield n).plp.hunt
    = p.plp.hunt ∧ (p.answerYield n).plp.rx = p.plp.rx ∧ (p.answerYield n).plp.op = p.plp.op ∧
    (p.answerYield n).plp.restarting = p.plp.restarting ∧ (p.answerYield n).nco.urgentLevel =
    p.nco.urgentLevel ∧ (p.answerYield n).agenda.period = p.agenda.period ∧ (p.answerYield n).agenda.walk
    = p.agenda.walk ∧ (p.answerYield n).agenda.store = p.agenda.store ∧ (p.answerYield n).agenda.port =
    p.agenda.port ∧ (p.answerYield n).agenda.held = p.agenda.held ∧ (p.answerYield n).agenda.frames =
    p.agenda.frames ∧ (p.answerYield n).clock = p.clock ∧ (p.answerYield n).serial = p.serial ∧
    (p.answerYield n).free = p.free := by
  unfold Part.answerYield
  (try dsimp only)
  (repeat' split) <;> simp

@[simp] theorem Part.refusalHeld_keeps (n : Fin 3) (code : Option Nat) (refused : Bool) (p : Part) :
    (p.refusalHeld n code refused).fcu.armRefused = p.fcu.armRefused ∧ (p.refusalHeld n code
    refused).fcu.keepSilent = p.fcu.keepSilent ∧ (p.refusalHeld n code refused).fcu.keepTimer =
    p.fcu.keepTimer ∧ (p.refusalHeld n code refused).fcu.keepLimit = p.fcu.keepLimit ∧ (p.refusalHeld n
    code refused).fcu.silentAction = p.fcu.silentAction ∧ (p.refusalHeld n code refused).fcu.zoneBladeMax
    = p.fcu.zoneBladeMax ∧ (p.refusalHeld n code refused).fcu.levelToSend = p.fcu.levelToSend ∧
    (p.refusalHeld n code refused).scr = p.scr ∧ (p.refusalHeld n code refused).ltr = p.ltr ∧
    (p.refusalHeld n code refused).sq.refillArmed = p.sq.refillArmed ∧ (p.refusalHeld n code
    refused).sq.starvedArmed = p.sq.starvedArmed ∧ (p.refusalHeld n code refused).sq.refillMark =
    p.sq.refillMark ∧ (p.refusalHeld n code refused).msh.source = p.msh.source ∧ (p.refusalHeld n code
    refused).msh.credited = p.msh.credited ∧ (p.refusalHeld n code refused).msh.wheels = p.msh.wheels ∧
    (p.refusalHeld n code refused).msh.odometer = p.msh.odometer ∧ (p.refusalHeld n code
    refused).msh.odometerCarry = p.msh.odometerCarry ∧ (p.refusalHeld n code refused).msh.progress =
    p.msh.progress ∧ (p.refusalHeld n code refused).msh.progressCarry = p.msh.progressCarry ∧
    (p.refusalHeld n code refused).msh.periodTimer = p.msh.periodTimer ∧ (p.refusalHeld n code
    refused).msh.kilotick = p.msh.kilotick ∧ (p.refusalHeld n code
    refused).msh.maneuverSpeed = p.msh.maneuverSpeed ∧ (p.refusalHeld n code refused).dbm.number =
    p.dbm.number ∧
    (p.refusalHeld n code refused).dbm.responseLimit = p.dbm.responseLimit ∧ (p.refusalHeld n code
    refused).dbm.holdLimit = p.dbm.holdLimit ∧ (p.refusalHeld n code refused).sin = p.sin ∧ (p.refusalHeld
    n code refused).hre.walk = p.hre.walk ∧ (p.refusalHeld n code refused).rtu.applying = p.rtu.applying ∧
    (p.refusalHeld n code refused).rtu.params = p.rtu.params ∧ (p.refusalHeld n code refused).rtu.distance
    = p.rtu.distance ∧ (p.refusalHeld n code refused).rtu.dockKey = p.rtu.dockKey ∧ (p.refusalHeld n code
    refused).rtu.copies = p.rtu.copies ∧ (p.refusalHeld n code refused).tst.poisoned = p.tst.poisoned ∧
    (p.refusalHeld n code refused).tst.mode = p.tst.mode ∧ (p.refusalHeld n code refused).tst.pattern =
    p.tst.pattern ∧ (p.refusalHeld n code refused).tst.capture = p.tst.capture ∧ (p.refusalHeld n code
    refused).tst.log = p.tst.log ∧ (p.refusalHeld n code refused).tst.scrubPointer = p.tst.scrubPointer ∧
    (p.refusalHeld n code refused).tst.scrubTimer = p.tst.scrubTimer ∧ (p.refusalHeld n code
    refused).tst.scrubPeriod = p.tst.scrubPeriod ∧ (p.refusalHeld n code refused).plp.hunt = p.plp.hunt ∧
    (p.refusalHeld n code refused).plp.rx = p.plp.rx ∧ (p.refusalHeld n code refused).plp.op = p.plp.op ∧
    (p.refusalHeld n code refused).plp.restarting = p.plp.restarting ∧ (p.refusalHeld n code
    refused).nco.urgentLevel = p.nco.urgentLevel ∧ (p.refusalHeld n code refused).agenda.period =
    p.agenda.period ∧ (p.refusalHeld n code refused).agenda.store = p.agenda.store ∧ (p.refusalHeld n code
    refused).agenda.port = p.agenda.port ∧ (p.refusalHeld n code refused).agenda.held = p.agenda.held ∧
    (p.refusalHeld n code refused).agenda.frames = p.agenda.frames ∧ (p.refusalHeld n code refused).clock
    = p.clock ∧ (p.refusalHeld n code refused).serial = p.serial ∧ (p.refusalHeld n code refused).free =
    p.free := by
  unfold Part.refusalHeld
  (try dsimp only)
  (repeat' split) <;> simp

@[simp] theorem Part.answerReject_keeps (n : Fin 3) (e : Exchange) (p : Part) :
    (p.answerReject n e).fcu.keepSilent = p.fcu.keepSilent ∧ (p.answerReject n e).fcu.keepTimer =
    p.fcu.keepTimer ∧ (p.answerReject n e).fcu.keepLimit = p.fcu.keepLimit ∧ (p.answerReject n
    e).fcu.silentAction = p.fcu.silentAction ∧ (p.answerReject n e).fcu.zoneBladeMax = p.fcu.zoneBladeMax
    ∧ (p.answerReject n e).fcu.levelToSend = p.fcu.levelToSend ∧ (p.answerReject n e).scr = p.scr ∧
    (p.answerReject n e).ltr = p.ltr ∧ (p.answerReject n e).sq.refillArmed = p.sq.refillArmed ∧
    (p.answerReject n e).sq.starvedArmed = p.sq.starvedArmed ∧ (p.answerReject n e).sq.refillMark =
    p.sq.refillMark ∧ (p.answerReject n e).msh.source = p.msh.source ∧ (p.answerReject n e).msh.credited =
    p.msh.credited ∧ (p.answerReject n e).msh.wheels = p.msh.wheels ∧ (p.answerReject n e).msh.odometer =
    p.msh.odometer ∧ (p.answerReject n e).msh.odometerCarry = p.msh.odometerCarry ∧ (p.answerReject n
    e).msh.progress = p.msh.progress ∧ (p.answerReject n e).msh.progressCarry = p.msh.progressCarry ∧
    (p.answerReject n e).msh.periodTimer = p.msh.periodTimer ∧ (p.answerReject n e).msh.kilotick =
    p.msh.kilotick ∧ (p.answerReject n e).msh.maneuverSpeed =
    p.msh.maneuverSpeed ∧ (p.answerReject n e).dbm.number = p.dbm.number ∧ (p.answerReject n
    e).dbm.responseLimit = p.dbm.responseLimit ∧ (p.answerReject n e).dbm.holdLimit = p.dbm.holdLimit ∧
    (p.answerReject n e).sin = p.sin ∧ (p.answerReject n e).hre.walk = p.hre.walk ∧ (p.answerReject n
    e).rtu.applying = p.rtu.applying ∧ (p.answerReject n e).rtu.params = p.rtu.params ∧ (p.answerReject n
    e).rtu.distance = p.rtu.distance ∧ (p.answerReject n e).rtu.dockKey = p.rtu.dockKey ∧ (p.answerReject
    n e).rtu.copies = p.rtu.copies ∧ (p.answerReject n e).tst.poisoned = p.tst.poisoned ∧ (p.answerReject
    n e).tst.mode = p.tst.mode ∧ (p.answerReject n e).tst.pattern = p.tst.pattern ∧ (p.answerReject n
    e).tst.capture = p.tst.capture ∧ (p.answerReject n e).tst.log = p.tst.log ∧ (p.answerReject n
    e).tst.scrubPointer = p.tst.scrubPointer ∧ (p.answerReject n e).tst.scrubTimer = p.tst.scrubTimer ∧
    (p.answerReject n e).tst.scrubPeriod = p.tst.scrubPeriod ∧ (p.answerReject n e).plp.hunt = p.plp.hunt
    ∧ (p.answerReject n e).plp.rx = p.plp.rx ∧ (p.answerReject n e).plp.op = p.plp.op ∧ (p.answerReject n
    e).plp.restarting = p.plp.restarting ∧ (p.answerReject n e).nco.urgentLevel = p.nco.urgentLevel ∧
    (p.answerReject n e).agenda.period = p.agenda.period ∧ (p.answerReject n e).agenda.store =
    p.agenda.store ∧ (p.answerReject n e).agenda.port = p.agenda.port ∧ (p.answerReject n e).agenda.held =
    p.agenda.held ∧ (p.answerReject n e).agenda.frames = p.agenda.frames ∧ (p.answerReject n e).clock =
    p.clock ∧ (p.answerReject n e).serial = p.serial ∧ (p.answerReject n e).free = p.free := by
  unfold Part.answerReject
  (try dsimp only)
  (repeat' split) <;> simp

@[simp] theorem Part.answerAccept_keeps (a : NodeAnswer) (e : Exchange) (p : Part) :
    (p.answerAccept a e).fcu.mode = p.fcu.mode ∧ (p.answerAccept a e).fcu.resume = p.fcu.resume ∧
    (p.answerAccept a e).fcu.stopCause = p.fcu.stopCause ∧ (p.answerAccept a e).fcu.hazardLevel =
    p.fcu.hazardLevel ∧ (p.answerAccept a e).fcu.permission = p.fcu.permission ∧ (p.answerAccept a
    e).fcu.keepSilent = p.fcu.keepSilent ∧ (p.answerAccept a e).fcu.keepTimer = p.fcu.keepTimer ∧
    (p.answerAccept a e).fcu.keepLimit = p.fcu.keepLimit ∧ (p.answerAccept a e).fcu.silentAction =
    p.fcu.silentAction ∧ (p.answerAccept a e).fcu.zoneBladeMax = p.fcu.zoneBladeMax ∧ (p.answerAccept a
    e).fcu.levelToSend = p.fcu.levelToSend ∧ (p.answerAccept a e).scr = p.scr ∧ (p.answerAccept a e).ltr =
    p.ltr ∧ (p.answerAccept a e).sq = p.sq ∧ (p.answerAccept a e).msh.previousLeft = p.msh.previousLeft ∧
    (p.answerAccept a e).msh.previousRight = p.msh.previousRight ∧ (p.answerAccept a e).msh.errorMemory =
    p.msh.errorMemory ∧ (p.answerAccept a e).msh.source = p.msh.source ∧ (p.answerAccept a e).msh.credited
    = p.msh.credited ∧ (p.answerAccept a e).msh.odometer = p.msh.odometer ∧ (p.answerAccept a
    e).msh.odometerCarry = p.msh.odometerCarry ∧ (p.answerAccept a e).msh.progress = p.msh.progress ∧
    (p.answerAccept a e).msh.progressCarry = p.msh.progressCarry ∧ (p.answerAccept a e).msh.periodTimer =
    p.msh.periodTimer ∧ (p.answerAccept a e).msh.computation = p.msh.computation ∧ (p.answerAccept a
    e).msh.kilotick = p.msh.kilotick ∧ (p.answerAccept a
    e).msh.maneuverSpeed = p.msh.maneuverSpeed ∧ (p.answerAccept a e).dbm.responseLimit =
    p.dbm.responseLimit ∧
    (p.answerAccept a e).dbm.holdLimit = p.dbm.holdLimit ∧ (p.answerAccept a e).sin = p.sin ∧
    (p.answerAccept a e).hre = p.hre ∧ (p.answerAccept a e).rtu = p.rtu ∧ (p.answerAccept a e).tst = p.tst
    ∧ (p.answerAccept a e).plp.hunt = p.plp.hunt ∧ (p.answerAccept a e).plp.rx = p.plp.rx ∧
    (p.answerAccept a e).plp.op = p.plp.op ∧ (p.answerAccept a e).plp.restarting = p.plp.restarting ∧
    (p.answerAccept a e).nco.urgentLevel = p.nco.urgentLevel ∧ (p.answerAccept a e).agenda.deferral =
    p.agenda.deferral ∧ (p.answerAccept a e).agenda.removed = p.agenda.removed ∧ (p.answerAccept a
    e).agenda.starved = p.agenda.starved ∧ (p.answerAccept a e).agenda.returning = p.agenda.returning ∧
    (p.answerAccept a e).agenda.period = p.agenda.period ∧ (p.answerAccept a e).agenda.walk =
    p.agenda.walk ∧ (p.answerAccept a e).agenda.store = p.agenda.store ∧ (p.answerAccept a e).agenda.port
    = p.agenda.port ∧ (p.answerAccept a e).agenda.held = p.agenda.held ∧ (p.answerAccept a
    e).agenda.frames = p.agenda.frames ∧ (p.answerAccept a e).clock = p.clock ∧ (p.answerAccept a
    e).serial = p.serial ∧ (p.answerAccept a e).free = p.free := by
  unfold Part.answerAccept
  (try dsimp only)
  (repeat' split) <;> simp

@[simp] theorem Part.acceptSuperseded_keeps (n : Fin 3) (p : Part) :
    (p.acceptSuperseded n).fcu = p.fcu ∧ (p.acceptSuperseded n).scr = p.scr ∧ (p.acceptSuperseded n).ltr =
    p.ltr ∧ (p.acceptSuperseded n).sq = p.sq ∧ (p.acceptSuperseded n).msh = p.msh ∧ (p.acceptSuperseded
    n).dbm.bus = p.dbm.bus ∧ (p.acceptSuperseded n).dbm.interlock = p.dbm.interlock ∧ (p.acceptSuperseded
    n).dbm.number = p.dbm.number ∧ (p.acceptSuperseded n).dbm.resetStops = p.dbm.resetStops ∧
    (p.acceptSuperseded n).dbm.responseLimit = p.dbm.responseLimit ∧ (p.acceptSuperseded n).dbm.holdLimit
    = p.dbm.holdLimit ∧ (p.acceptSuperseded n).sin = p.sin ∧ (p.acceptSuperseded n).hre = p.hre ∧
    (p.acceptSuperseded n).rtu = p.rtu ∧ (p.acceptSuperseded n).tst = p.tst ∧ (p.acceptSuperseded
    n).plp.hunt = p.plp.hunt ∧ (p.acceptSuperseded n).plp.rx = p.plp.rx ∧ (p.acceptSuperseded n).plp.op =
    p.plp.op ∧ (p.acceptSuperseded n).plp.restarting = p.plp.restarting ∧ (p.acceptSuperseded
    n).nco.urgentLevel = p.nco.urgentLevel ∧ (p.acceptSuperseded n).agenda = p.agenda ∧
    (p.acceptSuperseded n).clock = p.clock ∧ (p.acceptSuperseded n).serial = p.serial ∧
    (p.acceptSuperseded n).free = p.free := by
  unfold Part.acceptSuperseded
  (try dsimp only)
  (repeat' split) <;> simp

@[simp] theorem Part.exchangeAnswer_keeps (a : NodeAnswer) (e : Exchange) (p : Part) :
    (p.exchangeAnswer a e).fcu.keepSilent = p.fcu.keepSilent ∧ (p.exchangeAnswer a e).fcu.keepTimer =
    p.fcu.keepTimer ∧ (p.exchangeAnswer a e).fcu.keepLimit = p.fcu.keepLimit ∧ (p.exchangeAnswer a
    e).fcu.silentAction = p.fcu.silentAction ∧ (p.exchangeAnswer a e).fcu.zoneBladeMax =
    p.fcu.zoneBladeMax ∧ (p.exchangeAnswer a e).fcu.levelToSend = p.fcu.levelToSend ∧ (p.exchangeAnswer a
    e).scr = p.scr ∧ (p.exchangeAnswer a e).ltr = p.ltr ∧ (p.exchangeAnswer a e).sq.refillArmed =
    p.sq.refillArmed ∧ (p.exchangeAnswer a e).sq.starvedArmed = p.sq.starvedArmed ∧ (p.exchangeAnswer a
    e).sq.refillMark = p.sq.refillMark ∧ (p.exchangeAnswer a e).msh.source = p.msh.source ∧
    (p.exchangeAnswer a e).msh.credited = p.msh.credited ∧ (p.exchangeAnswer a e).msh.odometer =
    p.msh.odometer ∧ (p.exchangeAnswer a e).msh.odometerCarry = p.msh.odometerCarry ∧ (p.exchangeAnswer a
    e).msh.progress = p.msh.progress ∧ (p.exchangeAnswer a e).msh.progressCarry = p.msh.progressCarry ∧
    (p.exchangeAnswer a e).msh.periodTimer = p.msh.periodTimer ∧ (p.exchangeAnswer a e).msh.kilotick =
    p.msh.kilotick ∧ (p.exchangeAnswer a e).msh.maneuverSpeed =
    p.msh.maneuverSpeed ∧ (p.exchangeAnswer a e).dbm.responseLimit = p.dbm.responseLimit ∧
    (p.exchangeAnswer a
    e).dbm.holdLimit = p.dbm.holdLimit ∧ (p.exchangeAnswer a e).sin = p.sin ∧ (p.exchangeAnswer a
    e).hre.walk = p.hre.walk ∧ (p.exchangeAnswer a e).rtu.applying = p.rtu.applying ∧ (p.exchangeAnswer a
    e).rtu.params = p.rtu.params ∧ (p.exchangeAnswer a e).rtu.distance = p.rtu.distance ∧
    (p.exchangeAnswer a e).rtu.dockKey = p.rtu.dockKey ∧ (p.exchangeAnswer a e).rtu.copies = p.rtu.copies
    ∧ (p.exchangeAnswer a e).tst.poisoned = p.tst.poisoned ∧ (p.exchangeAnswer a e).tst.mode = p.tst.mode
    ∧ (p.exchangeAnswer a e).tst.pattern = p.tst.pattern ∧ (p.exchangeAnswer a e).tst.capture =
    p.tst.capture ∧ (p.exchangeAnswer a e).tst.log = p.tst.log ∧ (p.exchangeAnswer a e).tst.scrubPointer =
    p.tst.scrubPointer ∧ (p.exchangeAnswer a e).tst.scrubTimer = p.tst.scrubTimer ∧ (p.exchangeAnswer a
    e).tst.scrubPeriod = p.tst.scrubPeriod ∧ (p.exchangeAnswer a e).plp.hunt = p.plp.hunt ∧
    (p.exchangeAnswer a e).plp.rx = p.plp.rx ∧ (p.exchangeAnswer a e).plp.op = p.plp.op ∧
    (p.exchangeAnswer a e).plp.restarting = p.plp.restarting ∧ (p.exchangeAnswer a e).nco.urgentLevel =
    p.nco.urgentLevel ∧ (p.exchangeAnswer a e).agenda.period = p.agenda.period ∧ (p.exchangeAnswer a
    e).agenda.store = p.agenda.store ∧ (p.exchangeAnswer a e).agenda.port = p.agenda.port ∧
    (p.exchangeAnswer a e).agenda.held = p.agenda.held ∧ (p.exchangeAnswer a e).agenda.frames =
    p.agenda.frames ∧ (p.exchangeAnswer a e).clock = p.clock ∧ (p.exchangeAnswer a e).serial = p.serial ∧
    (p.exchangeAnswer a e).free = p.free := by
  unfold Part.exchangeAnswer
  (try dsimp only)
  (repeat' split) <;> simp

@[simp] theorem Part.takeReport_keeps (a : NodeAnswer) (p : Part) :
    (p.takeReport a).fcu = p.fcu ∧ (p.takeReport a).scr = p.scr ∧ (p.takeReport a).ltr = p.ltr ∧
    (p.takeReport a).sq = p.sq ∧ (p.takeReport a).msh = p.msh ∧ (p.takeReport a).dbm = p.dbm ∧
    (p.takeReport a).sin = p.sin ∧ (p.takeReport a).hre.walk = p.hre.walk ∧ (p.takeReport a).hre.active =
    p.hre.active ∧ (p.takeReport a).hre.pending = p.hre.pending ∧ (p.takeReport a).rtu = p.rtu ∧
    (p.takeReport a).tst = p.tst ∧ (p.takeReport a).plp = p.plp ∧ (p.takeReport a).nco = p.nco ∧
    (p.takeReport a).agenda.blade = p.agenda.blade ∧ (p.takeReport a).agenda.deferral = p.agenda.deferral
    ∧ (p.takeReport a).agenda.removed = p.agenda.removed ∧ (p.takeReport a).agenda.starved =
    p.agenda.starved ∧ (p.takeReport a).agenda.returning = p.agenda.returning ∧ (p.takeReport
    a).agenda.period = p.agenda.period ∧ (p.takeReport a).agenda.bus = p.agenda.bus ∧ (p.takeReport
    a).agenda.store = p.agenda.store ∧ (p.takeReport a).agenda.port = p.agenda.port ∧ (p.takeReport
    a).agenda.held = p.agenda.held ∧ (p.takeReport a).agenda.frames = p.agenda.frames ∧ (p.takeReport
    a).clock = p.clock ∧ (p.takeReport a).serial = p.serial ∧ (p.takeReport a).free = p.free := by
  unfold Part.takeReport
  (try dsimp only)
  (repeat' split) <;> simp

@[simp] theorem Part.grantEnded_keeps (n : Fin 3) (owed : Bool) (p : Part) :
    (p.grantEnded n owed).fcu = p.fcu ∧ (p.grantEnded n owed).scr = p.scr ∧ (p.grantEnded n owed).ltr =
    p.ltr ∧ (p.grantEnded n owed).sq = p.sq ∧ (p.grantEnded n owed).msh = p.msh ∧ (p.grantEnded n
    owed).dbm.bus = p.dbm.bus ∧ (p.grantEnded n owed).dbm.interlock = p.dbm.interlock ∧ (p.grantEnded n
    owed).dbm.number = p.dbm.number ∧ (p.grantEnded n owed).dbm.resetStops = p.dbm.resetStops ∧
    (p.grantEnded n owed).dbm.responseLimit = p.dbm.responseLimit ∧ (p.grantEnded n owed).dbm.holdLimit =
    p.dbm.holdLimit ∧ (p.grantEnded n owed).sin = p.sin ∧ (p.grantEnded n owed).hre = p.hre ∧
    (p.grantEnded n owed).rtu = p.rtu ∧ (p.grantEnded n owed).tst = p.tst ∧ (p.grantEnded n owed).plp =
    p.plp ∧ (p.grantEnded n owed).nco = p.nco ∧ (p.grantEnded n owed).agenda = p.agenda ∧ (p.grantEnded n
    owed).clock = p.clock ∧ (p.grantEnded n owed).serial = p.serial ∧ (p.grantEnded n owed).free = p.free
    := by
  unfold Part.grantEnded
  (try dsimp only)
  (repeat' split) <;> simp

@[simp] theorem Part.grantAnswer_keeps (a : NodeAnswer) (p : Part) :
    (p.grantAnswer a).fcu.armRefused = p.fcu.armRefused ∧ (p.grantAnswer a).fcu.keepSilent =
    p.fcu.keepSilent ∧ (p.grantAnswer a).fcu.keepTimer = p.fcu.keepTimer ∧ (p.grantAnswer a).fcu.keepLimit
    = p.fcu.keepLimit ∧ (p.grantAnswer a).fcu.silentAction = p.fcu.silentAction ∧ (p.grantAnswer
    a).fcu.zoneBladeMax = p.fcu.zoneBladeMax ∧ (p.grantAnswer a).fcu.levelToSend = p.fcu.levelToSend ∧
    (p.grantAnswer a).scr = p.scr ∧ (p.grantAnswer a).ltr = p.ltr ∧ (p.grantAnswer a).sq.refillArmed =
    p.sq.refillArmed ∧ (p.grantAnswer a).sq.starvedArmed = p.sq.starvedArmed ∧ (p.grantAnswer
    a).sq.refillMark = p.sq.refillMark ∧ (p.grantAnswer a).msh.source = p.msh.source ∧ (p.grantAnswer
    a).msh.credited = p.msh.credited ∧ (p.grantAnswer a).msh.wheels = p.msh.wheels ∧ (p.grantAnswer
    a).msh.odometer = p.msh.odometer ∧ (p.grantAnswer a).msh.odometerCarry = p.msh.odometerCarry ∧
    (p.grantAnswer a).msh.progress = p.msh.progress ∧ (p.grantAnswer a).msh.progressCarry =
    p.msh.progressCarry ∧ (p.grantAnswer a).msh.periodTimer = p.msh.periodTimer ∧ (p.grantAnswer
    a).msh.kilotick = p.msh.kilotick ∧ (p.grantAnswer
    a).msh.maneuverSpeed = p.msh.maneuverSpeed ∧ (p.grantAnswer a).dbm.number = p.dbm.number ∧
    (p.grantAnswer
    a).dbm.responseLimit = p.dbm.responseLimit ∧ (p.grantAnswer a).dbm.holdLimit = p.dbm.holdLimit ∧
    (p.grantAnswer a).sin = p.sin ∧ (p.grantAnswer a).hre.walk = p.hre.walk ∧ (p.grantAnswer
    a).rtu.applying = p.rtu.applying ∧ (p.grantAnswer a).rtu.params = p.rtu.params ∧ (p.grantAnswer
    a).rtu.distance = p.rtu.distance ∧ (p.grantAnswer a).rtu.dockKey = p.rtu.dockKey ∧ (p.grantAnswer
    a).rtu.copies = p.rtu.copies ∧ (p.grantAnswer a).tst.poisoned = p.tst.poisoned ∧ (p.grantAnswer
    a).tst.mode = p.tst.mode ∧ (p.grantAnswer a).tst.pattern = p.tst.pattern ∧ (p.grantAnswer
    a).tst.capture = p.tst.capture ∧ (p.grantAnswer a).tst.log = p.tst.log ∧ (p.grantAnswer
    a).tst.scrubPointer = p.tst.scrubPointer ∧ (p.grantAnswer a).tst.scrubTimer = p.tst.scrubTimer ∧
    (p.grantAnswer a).tst.scrubPeriod = p.tst.scrubPeriod ∧ (p.grantAnswer a).plp.hunt = p.plp.hunt ∧
    (p.grantAnswer a).plp.rx = p.plp.rx ∧ (p.grantAnswer a).plp.op = p.plp.op ∧ (p.grantAnswer
    a).plp.restarting = p.plp.restarting ∧ (p.grantAnswer a).nco.urgentLevel = p.nco.urgentLevel ∧
    (p.grantAnswer a).agenda.period = p.agenda.period ∧ (p.grantAnswer a).agenda.store = p.agenda.store ∧
    (p.grantAnswer a).agenda.port = p.agenda.port ∧ (p.grantAnswer a).agenda.held = p.agenda.held ∧
    (p.grantAnswer a).agenda.frames = p.agenda.frames ∧ (p.grantAnswer a).clock = p.clock ∧ (p.grantAnswer
    a).serial = p.serial ∧ (p.grantAnswer a).free = p.free := by
  unfold Part.grantAnswer
  (try dsimp only)
  (repeat' split) <;> simp

@[simp] theorem Part.nodeAnswered_keeps (a : NodeAnswer) (p : Part) :
    (p.nodeAnswered a).fcu.keepSilent = p.fcu.keepSilent ∧ (p.nodeAnswered a).fcu.keepTimer =
    p.fcu.keepTimer ∧ (p.nodeAnswered a).fcu.keepLimit = p.fcu.keepLimit ∧ (p.nodeAnswered
    a).fcu.silentAction = p.fcu.silentAction ∧ (p.nodeAnswered a).fcu.zoneBladeMax = p.fcu.zoneBladeMax ∧
    (p.nodeAnswered a).fcu.levelToSend = p.fcu.levelToSend ∧ (p.nodeAnswered a).scr = p.scr ∧
    (p.nodeAnswered a).ltr = p.ltr ∧ (p.nodeAnswered a).sq.refillArmed = p.sq.refillArmed ∧
    (p.nodeAnswered a).sq.starvedArmed = p.sq.starvedArmed ∧ (p.nodeAnswered a).sq.refillMark =
    p.sq.refillMark ∧ (p.nodeAnswered a).msh.source = p.msh.source ∧ (p.nodeAnswered a).msh.credited =
    p.msh.credited ∧ (p.nodeAnswered a).msh.odometer = p.msh.odometer ∧ (p.nodeAnswered
    a).msh.odometerCarry = p.msh.odometerCarry ∧ (p.nodeAnswered a).msh.progress = p.msh.progress ∧
    (p.nodeAnswered a).msh.progressCarry = p.msh.progressCarry ∧ (p.nodeAnswered a).msh.periodTimer =
    p.msh.periodTimer ∧ (p.nodeAnswered a).msh.kilotick = p.msh.kilotick ∧ (p.nodeAnswered
    a).msh.maneuverSpeed = p.msh.maneuverSpeed ∧ (p.nodeAnswered
    a).dbm.responseLimit = p.dbm.responseLimit ∧ (p.nodeAnswered a).dbm.holdLimit = p.dbm.holdLimit ∧
    (p.nodeAnswered a).sin = p.sin ∧ (p.nodeAnswered a).hre.walk = p.hre.walk ∧ (p.nodeAnswered
    a).rtu.applying = p.rtu.applying ∧ (p.nodeAnswered a).rtu.params = p.rtu.params ∧ (p.nodeAnswered
    a).rtu.distance = p.rtu.distance ∧ (p.nodeAnswered a).rtu.dockKey = p.rtu.dockKey ∧ (p.nodeAnswered
    a).rtu.copies = p.rtu.copies ∧ (p.nodeAnswered a).tst.poisoned = p.tst.poisoned ∧ (p.nodeAnswered
    a).tst.mode = p.tst.mode ∧ (p.nodeAnswered a).tst.pattern = p.tst.pattern ∧ (p.nodeAnswered
    a).tst.capture = p.tst.capture ∧ (p.nodeAnswered a).tst.log = p.tst.log ∧ (p.nodeAnswered
    a).tst.scrubPointer = p.tst.scrubPointer ∧ (p.nodeAnswered a).tst.scrubTimer = p.tst.scrubTimer ∧
    (p.nodeAnswered a).tst.scrubPeriod = p.tst.scrubPeriod ∧ (p.nodeAnswered a).plp.hunt = p.plp.hunt ∧
    (p.nodeAnswered a).plp.rx = p.plp.rx ∧ (p.nodeAnswered a).plp.op = p.plp.op ∧ (p.nodeAnswered
    a).plp.restarting = p.plp.restarting ∧ (p.nodeAnswered a).nco.urgentLevel = p.nco.urgentLevel ∧
    (p.nodeAnswered a).agenda.period = p.agenda.period ∧ (p.nodeAnswered a).agenda.store = p.agenda.store
    ∧ (p.nodeAnswered a).agenda.port = p.agenda.port ∧ (p.nodeAnswered a).agenda.held = p.agenda.held ∧
    (p.nodeAnswered a).agenda.frames = p.agenda.frames ∧ (p.nodeAnswered a).clock = p.clock ∧
    (p.nodeAnswered a).serial = p.serial ∧ (p.nodeAnswered a).free = p.free := by
  unfold Part.nodeAnswered
  (try dsimp only)
  (repeat' split) <;> simp

@[simp] theorem Part.responseTimedOut_keeps (p : Part) :
    p.responseTimedOut.fcu.armRefused = p.fcu.armRefused ∧ p.responseTimedOut.fcu.keepSilent =
    p.fcu.keepSilent ∧ p.responseTimedOut.fcu.keepTimer = p.fcu.keepTimer ∧
    p.responseTimedOut.fcu.keepLimit = p.fcu.keepLimit ∧ p.responseTimedOut.fcu.silentAction =
    p.fcu.silentAction ∧ p.responseTimedOut.fcu.zoneBladeMax = p.fcu.zoneBladeMax ∧
    p.responseTimedOut.fcu.levelToSend = p.fcu.levelToSend ∧ p.responseTimedOut.scr = p.scr ∧
    p.responseTimedOut.ltr = p.ltr ∧ p.responseTimedOut.sq.refillArmed = p.sq.refillArmed ∧
    p.responseTimedOut.sq.starvedArmed = p.sq.starvedArmed ∧ p.responseTimedOut.sq.refillMark =
    p.sq.refillMark ∧ p.responseTimedOut.msh.source = p.msh.source ∧ p.responseTimedOut.msh.credited =
    p.msh.credited ∧ p.responseTimedOut.msh.wheels = p.msh.wheels ∧ p.responseTimedOut.msh.odometer =
    p.msh.odometer ∧ p.responseTimedOut.msh.odometerCarry = p.msh.odometerCarry ∧
    p.responseTimedOut.msh.progress = p.msh.progress ∧ p.responseTimedOut.msh.progressCarry =
    p.msh.progressCarry ∧ p.responseTimedOut.msh.periodTimer = p.msh.periodTimer ∧
    p.responseTimedOut.msh.kilotick = p.msh.kilotick ∧ p.responseTimedOut.msh.maneuverSpeed =
    p.msh.maneuverSpeed ∧ p.responseTimedOut.dbm.number = p.dbm.number ∧
    p.responseTimedOut.dbm.responseLimit = p.dbm.responseLimit ∧ p.responseTimedOut.dbm.holdLimit =
    p.dbm.holdLimit ∧ p.responseTimedOut.sin = p.sin ∧ p.responseTimedOut.hre.queue = p.hre.queue ∧
    p.responseTimedOut.hre.walk = p.hre.walk ∧ p.responseTimedOut.rtu.applying = p.rtu.applying ∧
    p.responseTimedOut.rtu.params = p.rtu.params ∧ p.responseTimedOut.rtu.distance = p.rtu.distance ∧
    p.responseTimedOut.rtu.dockKey = p.rtu.dockKey ∧ p.responseTimedOut.rtu.copies = p.rtu.copies ∧
    p.responseTimedOut.tst.poisoned = p.tst.poisoned ∧ p.responseTimedOut.tst.mode = p.tst.mode ∧
    p.responseTimedOut.tst.pattern = p.tst.pattern ∧ p.responseTimedOut.tst.capture = p.tst.capture ∧
    p.responseTimedOut.tst.log = p.tst.log ∧ p.responseTimedOut.tst.scrubPointer = p.tst.scrubPointer ∧
    p.responseTimedOut.tst.scrubTimer = p.tst.scrubTimer ∧ p.responseTimedOut.tst.scrubPeriod =
    p.tst.scrubPeriod ∧ p.responseTimedOut.plp.hunt = p.plp.hunt ∧ p.responseTimedOut.plp.rx = p.plp.rx ∧
    p.responseTimedOut.plp.op = p.plp.op ∧ p.responseTimedOut.plp.restarting = p.plp.restarting ∧
    p.responseTimedOut.nco.urgentLevel = p.nco.urgentLevel ∧ p.responseTimedOut.agenda.period =
    p.agenda.period ∧ p.responseTimedOut.agenda.walk = p.agenda.walk ∧ p.responseTimedOut.agenda.store =
    p.agenda.store ∧ p.responseTimedOut.agenda.port = p.agenda.port ∧ p.responseTimedOut.agenda.held =
    p.agenda.held ∧ p.responseTimedOut.agenda.frames = p.agenda.frames ∧ p.responseTimedOut.clock =
    p.clock ∧ p.responseTimedOut.serial = p.serial ∧ p.responseTimedOut.free = p.free := by
  unfold Part.responseTimedOut
  (try dsimp only)
  (repeat' split) <;> simp

@[simp] theorem Part.readyRaised_keeps (n : Fin 3) (p : Part) :
    (p.readyRaised n).fcu = p.fcu ∧ (p.readyRaised n).scr = p.scr ∧ (p.readyRaised n).ltr = p.ltr ∧
    (p.readyRaised n).sq = p.sq ∧ (p.readyRaised n).msh = p.msh ∧ (p.readyRaised n).dbm.bus = p.dbm.bus ∧
    (p.readyRaised n).dbm.interlock = p.dbm.interlock ∧ (p.readyRaised n).dbm.number = p.dbm.number ∧
    (p.readyRaised n).dbm.resetStops = p.dbm.resetStops ∧ (p.readyRaised n).dbm.responseLimit =
    p.dbm.responseLimit ∧ (p.readyRaised n).dbm.holdLimit = p.dbm.holdLimit ∧ (p.readyRaised n).sin =
    p.sin ∧ (p.readyRaised n).hre = p.hre ∧ (p.readyRaised n).rtu = p.rtu ∧ (p.readyRaised n).tst = p.tst
    ∧ (p.readyRaised n).plp = p.plp ∧ (p.readyRaised n).nco = p.nco ∧ (p.readyRaised n).agenda.blade =
    p.agenda.blade ∧ (p.readyRaised n).agenda.deferral = p.agenda.deferral ∧ (p.readyRaised
    n).agenda.removed = p.agenda.removed ∧ (p.readyRaised n).agenda.starved = p.agenda.starved ∧
    (p.readyRaised n).agenda.returning = p.agenda.returning ∧ (p.readyRaised n).agenda.period =
    p.agenda.period ∧ (p.readyRaised n).agenda.walk = p.agenda.walk ∧ (p.readyRaised n).agenda.store =
    p.agenda.store ∧ (p.readyRaised n).agenda.port = p.agenda.port ∧ (p.readyRaised n).agenda.held =
    p.agenda.held ∧ (p.readyRaised n).agenda.frames = p.agenda.frames ∧ (p.readyRaised n).clock = p.clock
    ∧ (p.readyRaised n).serial = p.serial ∧ (p.readyRaised n).free = p.free := by
  unfold Part.readyRaised
  (try dsimp only)
  (repeat' split) <;> simp

@[simp] theorem Part.holdLimitPassed_keeps (n : Fin 3) (p : Part) :
    (p.holdLimitPassed n).fcu = p.fcu ∧ (p.holdLimitPassed n).scr = p.scr ∧ (p.holdLimitPassed n).ltr =
    p.ltr ∧ (p.holdLimitPassed n).sq = p.sq ∧ (p.holdLimitPassed n).msh = p.msh ∧ (p.holdLimitPassed
    n).dbm.bus = p.dbm.bus ∧ (p.holdLimitPassed n).dbm.interlock = p.dbm.interlock ∧ (p.holdLimitPassed
    n).dbm.number = p.dbm.number ∧ (p.holdLimitPassed n).dbm.resetStops = p.dbm.resetStops ∧
    (p.holdLimitPassed n).dbm.responseLimit = p.dbm.responseLimit ∧ (p.holdLimitPassed n).dbm.holdLimit =
    p.dbm.holdLimit ∧ (p.holdLimitPassed n).sin = p.sin ∧ (p.holdLimitPassed n).hre = p.hre ∧
    (p.holdLimitPassed n).rtu = p.rtu ∧ (p.holdLimitPassed n).tst = p.tst ∧ (p.holdLimitPassed n).plp =
    p.plp ∧ (p.holdLimitPassed n).nco = p.nco ∧ (p.holdLimitPassed n).agenda.blade = p.agenda.blade ∧
    (p.holdLimitPassed n).agenda.deferral = p.agenda.deferral ∧ (p.holdLimitPassed n).agenda.removed =
    p.agenda.removed ∧ (p.holdLimitPassed n).agenda.starved = p.agenda.starved ∧ (p.holdLimitPassed
    n).agenda.returning = p.agenda.returning ∧ (p.holdLimitPassed n).agenda.period = p.agenda.period ∧
    (p.holdLimitPassed n).agenda.walk = p.agenda.walk ∧ (p.holdLimitPassed n).agenda.store =
    p.agenda.store ∧ (p.holdLimitPassed n).agenda.port = p.agenda.port ∧ (p.holdLimitPassed n).agenda.held
    = p.agenda.held ∧ (p.holdLimitPassed n).agenda.frames = p.agenda.frames ∧ (p.holdLimitPassed n).clock
    = p.clock ∧ (p.holdLimitPassed n).serial = p.serial ∧ (p.holdLimitPassed n).free = p.free := by
  unfold Part.holdLimitPassed
  (try dsimp only)
  (repeat' split) <;> simp

@[simp] theorem Part.takeOffer_keeps (c : Nat) (n : Fin 3) (p : Part) :
    (p.takeOffer c n).fcu = p.fcu ∧ (p.takeOffer c n).scr = p.scr ∧ (p.takeOffer c n).ltr = p.ltr ∧
    (p.takeOffer c n).sq = p.sq ∧ (p.takeOffer c n).msh = p.msh ∧ (p.takeOffer c n).dbm.bus = p.dbm.bus ∧
    (p.takeOffer c n).dbm.number = p.dbm.number ∧ (p.takeOffer c n).dbm.resetStops = p.dbm.resetStops ∧
    (p.takeOffer c n).dbm.responseLimit = p.dbm.responseLimit ∧ (p.takeOffer c n).dbm.holdLimit =
    p.dbm.holdLimit ∧ (p.takeOffer c n).sin = p.sin ∧ (p.takeOffer c n).hre = p.hre ∧ (p.takeOffer c
    n).rtu = p.rtu ∧ (p.takeOffer c n).tst = p.tst ∧ (p.takeOffer c n).plp = p.plp ∧ (p.takeOffer c n).nco
    = p.nco ∧ (p.takeOffer c n).agenda = p.agenda ∧ (p.takeOffer c n).clock = p.clock ∧ (p.takeOffer c
    n).serial = p.serial ∧ (p.takeOffer c n).free = p.free := by
  unfold Part.takeOffer
  (try dsimp only)
  (repeat' split) <;> simp

@[simp] theorem Part.grantFrom_keeps (x0 : Nat) (p : Part) :
    (p.grantFrom x0).fcu.mode = p.fcu.mode ∧ (p.grantFrom x0).fcu.resume = p.fcu.resume ∧ (p.grantFrom
    x0).fcu.stopCause = p.fcu.stopCause ∧ (p.grantFrom x0).fcu.hazardLevel = p.fcu.hazardLevel ∧
    (p.grantFrom x0).fcu.armRefused = p.fcu.armRefused ∧ (p.grantFrom x0).fcu.permission =
    p.fcu.permission ∧ (p.grantFrom x0).fcu.keepSilent = p.fcu.keepSilent ∧ (p.grantFrom x0).fcu.keepTimer
    = p.fcu.keepTimer ∧ (p.grantFrom x0).fcu.keepLimit = p.fcu.keepLimit ∧ (p.grantFrom
    x0).fcu.silentAction = p.fcu.silentAction ∧ (p.grantFrom x0).fcu.zoneBladeMax = p.fcu.zoneBladeMax ∧
    (p.grantFrom x0).fcu.levelToSend = p.fcu.levelToSend ∧ (p.grantFrom x0).scr = p.scr ∧ (p.grantFrom
    x0).ltr = p.ltr ∧ (p.grantFrom x0).sq = p.sq ∧ (p.grantFrom x0).msh = p.msh ∧ (p.grantFrom
    x0).dbm.resetStops = p.dbm.resetStops ∧ (p.grantFrom x0).dbm.responseLimit = p.dbm.responseLimit ∧
    (p.grantFrom x0).dbm.holdLimit = p.dbm.holdLimit ∧ (p.grantFrom x0).sin = p.sin ∧ (p.grantFrom x0).hre
    = p.hre ∧ (p.grantFrom x0).rtu = p.rtu ∧ (p.grantFrom x0).tst = p.tst ∧ (p.grantFrom x0).plp = p.plp ∧
    (p.grantFrom x0).nco = p.nco ∧ (p.grantFrom x0).agenda.deferral = p.agenda.deferral ∧ (p.grantFrom
    x0).agenda.removed = p.agenda.removed ∧ (p.grantFrom x0).agenda.starved = p.agenda.starved ∧
    (p.grantFrom x0).agenda.returning = p.agenda.returning ∧ (p.grantFrom x0).agenda.period =
    p.agenda.period ∧ (p.grantFrom x0).agenda.walk = p.agenda.walk ∧ (p.grantFrom x0).agenda.store =
    p.agenda.store ∧ (p.grantFrom x0).agenda.port = p.agenda.port ∧ (p.grantFrom x0).agenda.held =
    p.agenda.held ∧ (p.grantFrom x0).agenda.frames = p.agenda.frames ∧ (p.grantFrom x0).clock = p.clock ∧
    (p.grantFrom x0).serial = p.serial ∧ (p.grantFrom x0).free = p.free := by
  induction x0 generalizing p with
  | zero => simp [Part.grantFrom]
  | succ n ih => simp only [Part.grantFrom]; (repeat' split) <;> simp_all

@[simp] theorem Part.grantBus_keeps (p : Part) :
    p.grantBus.fcu.mode = p.fcu.mode ∧ p.grantBus.fcu.resume = p.fcu.resume ∧ p.grantBus.fcu.stopCause =
    p.fcu.stopCause ∧ p.grantBus.fcu.hazardLevel = p.fcu.hazardLevel ∧ p.grantBus.fcu.armRefused =
    p.fcu.armRefused ∧ p.grantBus.fcu.permission = p.fcu.permission ∧ p.grantBus.fcu.keepSilent =
    p.fcu.keepSilent ∧ p.grantBus.fcu.keepTimer = p.fcu.keepTimer ∧ p.grantBus.fcu.keepLimit =
    p.fcu.keepLimit ∧ p.grantBus.fcu.silentAction = p.fcu.silentAction ∧ p.grantBus.fcu.zoneBladeMax =
    p.fcu.zoneBladeMax ∧ p.grantBus.fcu.levelToSend = p.fcu.levelToSend ∧ p.grantBus.scr = p.scr ∧
    p.grantBus.ltr = p.ltr ∧ p.grantBus.sq = p.sq ∧ p.grantBus.msh = p.msh ∧ p.grantBus.dbm.resetStops =
    p.dbm.resetStops ∧ p.grantBus.dbm.responseLimit = p.dbm.responseLimit ∧ p.grantBus.dbm.holdLimit =
    p.dbm.holdLimit ∧ p.grantBus.sin = p.sin ∧ p.grantBus.hre = p.hre ∧ p.grantBus.rtu = p.rtu ∧
    p.grantBus.tst = p.tst ∧ p.grantBus.plp = p.plp ∧ p.grantBus.nco = p.nco ∧ p.grantBus.agenda.deferral
    = p.agenda.deferral ∧ p.grantBus.agenda.removed = p.agenda.removed ∧ p.grantBus.agenda.starved =
    p.agenda.starved ∧ p.grantBus.agenda.returning = p.agenda.returning ∧ p.grantBus.agenda.period =
    p.agenda.period ∧ p.grantBus.agenda.walk = p.agenda.walk ∧ p.grantBus.agenda.store = p.agenda.store ∧
    p.grantBus.agenda.port = p.agenda.port ∧ p.grantBus.agenda.held = p.agenda.held ∧
    p.grantBus.agenda.frames = p.agenda.frames ∧ p.grantBus.clock = p.clock ∧ p.grantBus.serial = p.serial
    ∧ p.grantBus.free = p.free := by
  unfold Part.grantBus
  (try dsimp only)
  (repeat' split) <;> simp

@[simp] theorem Part.plannerResult_keeps (result : Option (List Int)) (p : Part) :
    (p.plannerResult result).fcu.stopCause = p.fcu.stopCause ∧ (p.plannerResult result).fcu.hazardLevel =
    p.fcu.hazardLevel ∧ (p.plannerResult result).fcu.permission = p.fcu.permission ∧ (p.plannerResult
    result).fcu.keepSilent = p.fcu.keepSilent ∧ (p.plannerResult result).fcu.keepTimer = p.fcu.keepTimer ∧
    (p.plannerResult result).fcu.keepLimit = p.fcu.keepLimit ∧ (p.plannerResult result).fcu.silentAction =
    p.fcu.silentAction ∧ (p.plannerResult result).fcu.zoneBladeMax = p.fcu.zoneBladeMax ∧ (p.plannerResult
    result).fcu.levelToSend = p.fcu.levelToSend ∧ (p.plannerResult result).scr = p.scr ∧ (p.plannerResult
    result).ltr = p.ltr ∧ (p.plannerResult result).sq.refillMark = p.sq.refillMark ∧ (p.plannerResult
    result).msh.previousLeft = p.msh.previousLeft ∧ (p.plannerResult result).msh.previousRight =
    p.msh.previousRight ∧ (p.plannerResult result).msh.errorMemory = p.msh.errorMemory ∧ (p.plannerResult
    result).msh.source = p.msh.source ∧ (p.plannerResult result).msh.credited = p.msh.credited ∧
    (p.plannerResult result).msh.wheels = p.msh.wheels ∧ (p.plannerResult result).msh.odometer =
    p.msh.odometer ∧ (p.plannerResult result).msh.odometerCarry = p.msh.odometerCarry ∧ (p.plannerResult
    result).msh.progressCarry = p.msh.progressCarry ∧ (p.plannerResult result).msh.periodTimer =
    p.msh.periodTimer ∧ (p.plannerResult result).msh.computation = p.msh.computation ∧ (p.plannerResult
    result).msh.kilotick = p.msh.kilotick ∧ (p.plannerResult
    result).msh.maneuverSpeed = p.msh.maneuverSpeed ∧ (p.plannerResult result).dbm.bus = p.dbm.bus ∧
    (p.plannerResult result).dbm.number = p.dbm.number ∧ (p.plannerResult result).dbm.resetStops =
    p.dbm.resetStops ∧ (p.plannerResult result).dbm.responseLimit = p.dbm.responseLimit ∧ (p.plannerResult
    result).dbm.holdLimit = p.dbm.holdLimit ∧ (p.plannerResult result).sin = p.sin ∧ (p.plannerResult
    result).hre = p.hre ∧ (p.plannerResult result).rtu.stack = p.rtu.stack ∧ (p.plannerResult
    result).rtu.overflow = p.rtu.overflow ∧ (p.plannerResult result).rtu.crossings = p.rtu.crossings ∧
    (p.plannerResult result).rtu.applying = p.rtu.applying ∧ (p.plannerResult result).rtu.planning =
    p.rtu.planning ∧ (p.plannerResult result).rtu.leg = p.rtu.leg ∧ (p.plannerResult result).rtu.activity
    = p.rtu.activity ∧ (p.plannerResult result).rtu.params = p.rtu.params ∧ (p.plannerResult
    result).rtu.distance = p.rtu.distance ∧ (p.plannerResult result).rtu.finalApproach =
    p.rtu.finalApproach ∧ (p.plannerResult result).rtu.dockKey = p.rtu.dockKey ∧ (p.plannerResult
    result).rtu.attempts = p.rtu.attempts ∧ (p.plannerResult result).rtu.settle = p.rtu.settle ∧
    (p.plannerResult result).rtu.copies = p.rtu.copies ∧ (p.plannerResult result).tst.poisoned =
    p.tst.poisoned ∧ (p.plannerResult result).tst.mode = p.tst.mode ∧ (p.plannerResult result).tst.pattern
    = p.tst.pattern ∧ (p.plannerResult result).tst.capture = p.tst.capture ∧ (p.plannerResult
    result).tst.log = p.tst.log ∧ (p.plannerResult result).tst.scrubPointer = p.tst.scrubPointer ∧
    (p.plannerResult result).tst.scrubTimer = p.tst.scrubTimer ∧ (p.plannerResult result).tst.scrubPeriod
    = p.tst.scrubPeriod ∧ (p.plannerResult result).tst.current = p.tst.current ∧ (p.plannerResult
    result).plp.hunt = p.plp.hunt ∧ (p.plannerResult result).plp.restarting = p.plp.restarting ∧
    (p.plannerResult result).nco.urgentLevel = p.nco.urgentLevel ∧ (p.plannerResult result).agenda.period
    = p.agenda.period ∧ (p.plannerResult result).agenda.walk = p.agenda.walk ∧ (p.plannerResult
    result).agenda.held = p.agenda.held ∧ (p.plannerResult result).agenda.frames = p.agenda.frames ∧
    (p.plannerResult result).clock = p.clock ∧ (p.plannerResult result).free = p.free := by
  unfold Part.plannerResult
  (try dsimp only)
  (repeat' split) <;> simp

@[simp] theorem Part.deliver_keeps (owner : Owner) (result : Option (List Int)) (p : Part) :
    (p.deliver owner result).fcu.keepSilent = p.fcu.keepSilent ∧ (p.deliver owner result).fcu.keepTimer =
    p.fcu.keepTimer ∧ (p.deliver owner result).fcu.levelToSend = p.fcu.levelToSend ∧ (p.deliver owner
    result).msh.source = p.msh.source ∧ (p.deliver owner result).msh.credited = p.msh.credited ∧
    (p.deliver owner result).msh.wheels = p.msh.wheels ∧ (p.deliver owner result).msh.odometer =
    p.msh.odometer ∧ (p.deliver owner result).msh.odometerCarry = p.msh.odometerCarry ∧ (p.deliver owner
    result).msh.progressCarry = p.msh.progressCarry ∧ (p.deliver owner result).msh.periodTimer =
    p.msh.periodTimer ∧ (p.deliver owner result).dbm.bus = p.dbm.bus ∧ (p.deliver owner result).dbm.number
    = p.dbm.number ∧ (p.deliver owner result).dbm.resetStops = p.dbm.resetStops ∧ (p.deliver owner
    result).sin.bumper = p.sin.bumper ∧ (p.deliver owner result).sin.attitude = p.sin.attitude ∧
    (p.deliver owner result).sin.range = p.sin.range ∧ (p.deliver owner result).sin.environment =
    p.sin.environment ∧ (p.deliver owner result).sin.stale = p.sin.stale ∧ (p.deliver owner
    result).sin.timers = p.sin.timers ∧ (p.deliver owner result).tst.poisoned = p.tst.poisoned ∧
    (p.deliver owner result).tst.mode = p.tst.mode ∧ (p.deliver owner result).tst.pattern = p.tst.pattern
    ∧ (p.deliver owner result).tst.capture = p.tst.capture ∧ (p.deliver owner result).tst.log = p.tst.log
    ∧ (p.deliver owner result).tst.scrubPointer = p.tst.scrubPointer ∧ (p.deliver owner result).plp.hunt =
    p.plp.hunt ∧ (p.deliver owner result).plp.restarting = p.plp.restarting ∧ (p.deliver owner
    result).agenda.period = p.agenda.period ∧ (p.deliver owner result).agenda.held = p.agenda.held ∧
    (p.deliver owner result).agenda.frames = p.agenda.frames ∧ (p.deliver owner result).clock = p.clock ∧
    (p.deliver owner result).free = p.free := by
  unfold Part.deliver
  (try dsimp only)
  (repeat' split) <;> simp

@[simp] theorem Part.fillCapture_keeps (m : StoreMode) (t : Table) (i : Nat) (words : List StoredWord) (p
: Part) :
    (p.fillCapture m t i words).fcu = p.fcu ∧ (p.fillCapture m t i words).scr = p.scr ∧ (p.fillCapture m t
    i words).ltr = p.ltr ∧ (p.fillCapture m t i words).sq = p.sq ∧ (p.fillCapture m t i words).msh = p.msh
    ∧ (p.fillCapture m t i words).dbm = p.dbm ∧ (p.fillCapture m t i words).sin = p.sin ∧ (p.fillCapture m
    t i words).hre = p.hre ∧ (p.fillCapture m t i words).rtu = p.rtu ∧ (p.fillCapture m t i
    words).tst.poisoned = p.tst.poisoned ∧ (p.fillCapture m t i words).tst.mode = p.tst.mode ∧
    (p.fillCapture m t i words).tst.pattern = p.tst.pattern ∧ (p.fillCapture m t i words).tst.log =
    p.tst.log ∧ (p.fillCapture m t i words).tst.scrubPointer = p.tst.scrubPointer ∧ (p.fillCapture m t i
    words).tst.scrubTimer = p.tst.scrubTimer ∧ (p.fillCapture m t i words).tst.scrubPeriod =
    p.tst.scrubPeriod ∧ (p.fillCapture m t i words).tst.waiting = p.tst.waiting ∧ (p.fillCapture m t i
    words).tst.current = p.tst.current ∧ (p.fillCapture m t i words).plp = p.plp ∧ (p.fillCapture m t i
    words).nco = p.nco ∧ (p.fillCapture m t i words).agenda = p.agenda ∧ (p.fillCapture m t i words).clock
    = p.clock ∧ (p.fillCapture m t i words).serial = p.serial ∧ (p.fillCapture m t i words).free = p.free
    := by
  unfold Part.fillCapture
  (try dsimp only)
  (repeat' split) <;> simp

@[simp] theorem Part.readConsequence_keeps (m : StoreMode) (t : Table) (i : Nat) (reader : Reader) (own :
Bool) (errors : List FoundError) (p : Part) :
    (p.readConsequence m t i reader own errors).fcu.armRefused = p.fcu.armRefused ∧ (p.readConsequence m t
    i reader own errors).fcu.keepSilent = p.fcu.keepSilent ∧ (p.readConsequence m t i reader own
    errors).fcu.keepTimer = p.fcu.keepTimer ∧ (p.readConsequence m t i reader own errors).fcu.keepLimit =
    p.fcu.keepLimit ∧ (p.readConsequence m t i reader own errors).fcu.silentAction = p.fcu.silentAction ∧
    (p.readConsequence m t i reader own errors).fcu.zoneBladeMax = p.fcu.zoneBladeMax ∧ (p.readConsequence
    m t i reader own errors).fcu.levelToSend = p.fcu.levelToSend ∧ (p.readConsequence m t i reader own
    errors).scr = p.scr ∧ (p.readConsequence m t i reader own errors).ltr.tracks = p.ltr.tracks ∧
    (p.readConsequence m t i reader own errors).ltr.zone = p.ltr.zone ∧ (p.readConsequence m t i reader
    own errors).ltr.lastZone = p.ltr.lastZone ∧ (p.readConsequence m t i reader own errors).ltr.spacing =
    p.ltr.spacing ∧ (p.readConsequence m t i reader own errors).sq.refillArmed = p.sq.refillArmed ∧
    (p.readConsequence m t i reader own errors).sq.starvedArmed = p.sq.starvedArmed ∧ (p.readConsequence m
    t i reader own errors).sq.refillMark = p.sq.refillMark ∧ (p.readConsequence m t i reader own
    errors).msh.source = p.msh.source ∧ (p.readConsequence m t i reader own errors).msh.credited =
    p.msh.credited ∧ (p.readConsequence m t i reader own errors).msh.wheels = p.msh.wheels ∧
    (p.readConsequence m t i reader own errors).msh.odometer = p.msh.odometer ∧ (p.readConsequence m t i
    reader own errors).msh.odometerCarry = p.msh.odometerCarry ∧ (p.readConsequence m t i reader own
    errors).msh.progress = p.msh.progress ∧ (p.readConsequence m t i reader own errors).msh.progressCarry
    = p.msh.progressCarry ∧ (p.readConsequence m t i reader own errors).msh.periodTimer =
    p.msh.periodTimer ∧ (p.readConsequence m t i reader own errors).msh.kilotick = p.msh.kilotick ∧
    (p.readConsequence m t i reader own errors).msh.maneuverSpeed = p.msh.maneuverSpeed ∧
    (p.readConsequence m t i reader own errors).dbm.bus = p.dbm.bus ∧ (p.readConsequence m t i reader own
    errors).dbm.number = p.dbm.number ∧ (p.readConsequence m t i reader own errors).dbm.resetStops =
    p.dbm.resetStops ∧ (p.readConsequence m t i reader own errors).dbm.responseLimit = p.dbm.responseLimit
    ∧ (p.readConsequence m t i reader own errors).dbm.holdLimit = p.dbm.holdLimit ∧ (p.readConsequence m t
    i reader own errors).sin = p.sin ∧ (p.readConsequence m t i reader own errors).hre.queue = p.hre.queue
    ∧ (p.readConsequence m t i reader own errors).hre.walk = p.hre.walk ∧ (p.readConsequence m t i reader
    own errors).rtu.applying = p.rtu.applying ∧ (p.readConsequence m t i reader own errors).rtu.params =
    p.rtu.params ∧ (p.readConsequence m t i reader own errors).rtu.distance = p.rtu.distance ∧
    (p.readConsequence m t i reader own errors).rtu.dockKey = p.rtu.dockKey ∧ (p.readConsequence m t i
    reader own errors).rtu.copies = p.rtu.copies ∧ (p.readConsequence m t i reader own errors).tst.mode =
    p.tst.mode ∧ (p.readConsequence m t i reader own errors).tst.pattern = p.tst.pattern ∧
    (p.readConsequence m t i reader own errors).tst.capture = p.tst.capture ∧ (p.readConsequence m t i
    reader own errors).tst.log = p.tst.log ∧ (p.readConsequence m t i reader own errors).tst.scrubPointer
    = p.tst.scrubPointer ∧ (p.readConsequence m t i reader own errors).tst.scrubTimer = p.tst.scrubTimer ∧
    (p.readConsequence m t i reader own errors).tst.scrubPeriod = p.tst.scrubPeriod ∧ (p.readConsequence m
    t i reader own errors).plp.hunt = p.plp.hunt ∧ (p.readConsequence m t i reader own errors).plp.rx =
    p.plp.rx ∧ (p.readConsequence m t i reader own errors).plp.op = p.plp.op ∧ (p.readConsequence m t i
    reader own errors).plp.restarting = p.plp.restarting ∧ (p.readConsequence m t i reader own
    errors).nco.urgentLevel = p.nco.urgentLevel ∧ (p.readConsequence m t i reader own
    errors).agenda.period = p.agenda.period ∧ (p.readConsequence m t i reader own errors).agenda.walk =
    p.agenda.walk ∧ (p.readConsequence m t i reader own errors).agenda.port = p.agenda.port ∧
    (p.readConsequence m t i reader own errors).agenda.held = p.agenda.held ∧ (p.readConsequence m t i
    reader own errors).agenda.frames = p.agenda.frames ∧ (p.readConsequence m t i reader own errors).clock
    = p.clock ∧ (p.readConsequence m t i reader own errors).serial = p.serial ∧ (p.readConsequence m t i
    reader own errors).free = p.free := by
  unfold Part.readConsequence
  (try dsimp only)
  (repeat' split) <;> simp

@[simp] theorem Part.checkEntry_keeps (a : Access) (t : Table) (i : Nat) (words : List StoredWord)
(findings : List WordFinding) (p : Part) :
    (p.checkEntry a t i words findings).fcu.armRefused = p.fcu.armRefused ∧ (p.checkEntry a t i words
    findings).fcu.keepSilent = p.fcu.keepSilent ∧ (p.checkEntry a t i words findings).fcu.keepTimer =
    p.fcu.keepTimer ∧ (p.checkEntry a t i words findings).fcu.keepLimit = p.fcu.keepLimit ∧ (p.checkEntry
    a t i words findings).fcu.silentAction = p.fcu.silentAction ∧ (p.checkEntry a t i words
    findings).fcu.zoneBladeMax = p.fcu.zoneBladeMax ∧ (p.checkEntry a t i words findings).fcu.levelToSend
    = p.fcu.levelToSend ∧ (p.checkEntry a t i words findings).scr = p.scr ∧ (p.checkEntry a t i words
    findings).ltr.tracks = p.ltr.tracks ∧ (p.checkEntry a t i words findings).ltr.zone = p.ltr.zone ∧
    (p.checkEntry a t i words findings).ltr.lastZone = p.ltr.lastZone ∧ (p.checkEntry a t i words
    findings).ltr.spacing = p.ltr.spacing ∧ (p.checkEntry a t i words findings).sq.refillArmed =
    p.sq.refillArmed ∧ (p.checkEntry a t i words findings).sq.starvedArmed = p.sq.starvedArmed ∧
    (p.checkEntry a t i words findings).sq.refillMark = p.sq.refillMark ∧ (p.checkEntry a t i words
    findings).msh.source = p.msh.source ∧ (p.checkEntry a t i words findings).msh.credited =
    p.msh.credited ∧ (p.checkEntry a t i words findings).msh.wheels = p.msh.wheels ∧ (p.checkEntry a t i
    words findings).msh.odometer = p.msh.odometer ∧ (p.checkEntry a t i words findings).msh.odometerCarry
    = p.msh.odometerCarry ∧ (p.checkEntry a t i words findings).msh.progress = p.msh.progress ∧
    (p.checkEntry a t i words findings).msh.progressCarry = p.msh.progressCarry ∧ (p.checkEntry a t i
    words findings).msh.periodTimer = p.msh.periodTimer ∧ (p.checkEntry a t i words findings).msh.kilotick
    = p.msh.kilotick ∧ (p.checkEntry a t i words findings).msh.maneuverSpeed
    = p.msh.maneuverSpeed ∧ (p.checkEntry a t i words findings).dbm.bus = p.dbm.bus ∧ (p.checkEntry a t i
    words
    findings).dbm.number = p.dbm.number ∧ (p.checkEntry a t i words findings).dbm.resetStops =
    p.dbm.resetStops ∧ (p.checkEntry a t i words findings).dbm.responseLimit = p.dbm.responseLimit ∧
    (p.checkEntry a t i words findings).dbm.holdLimit = p.dbm.holdLimit ∧ (p.checkEntry a t i words
    findings).sin = p.sin ∧ (p.checkEntry a t i words findings).hre.queue = p.hre.queue ∧ (p.checkEntry a
    t i words findings).hre.walk = p.hre.walk ∧ (p.checkEntry a t i words findings).rtu.applying =
    p.rtu.applying ∧ (p.checkEntry a t i words findings).rtu.params = p.rtu.params ∧ (p.checkEntry a t i
    words findings).rtu.distance = p.rtu.distance ∧ (p.checkEntry a t i words findings).rtu.dockKey =
    p.rtu.dockKey ∧ (p.checkEntry a t i words findings).rtu.copies = p.rtu.copies ∧ (p.checkEntry a t i
    words findings).tst.mode = p.tst.mode ∧ (p.checkEntry a t i words findings).tst.pattern =
    p.tst.pattern ∧ (p.checkEntry a t i words findings).tst.scrubPointer = p.tst.scrubPointer ∧
    (p.checkEntry a t i words findings).tst.scrubTimer = p.tst.scrubTimer ∧ (p.checkEntry a t i words
    findings).tst.scrubPeriod = p.tst.scrubPeriod ∧ (p.checkEntry a t i words findings).plp.hunt =
    p.plp.hunt ∧ (p.checkEntry a t i words findings).plp.rx = p.plp.rx ∧ (p.checkEntry a t i words
    findings).plp.op = p.plp.op ∧ (p.checkEntry a t i words findings).plp.restarting = p.plp.restarting ∧
    (p.checkEntry a t i words findings).nco.urgentLevel = p.nco.urgentLevel ∧ (p.checkEntry a t i words
    findings).agenda.period = p.agenda.period ∧ (p.checkEntry a t i words findings).agenda.walk =
    p.agenda.walk ∧ (p.checkEntry a t i words findings).agenda.port = p.agenda.port ∧ (p.checkEntry a t i
    words findings).agenda.held = p.agenda.held ∧ (p.checkEntry a t i words findings).agenda.frames =
    p.agenda.frames ∧ (p.checkEntry a t i words findings).clock = p.clock ∧ (p.checkEntry a t i words
    findings).serial = p.serial ∧ (p.checkEntry a t i words findings).free = p.free := by
  unfold Part.checkEntry
  (try dsimp only)
  (repeat' split) <;> simp

@[simp] theorem Part.completeRead_keeps (a : Access) (t : Table) (i : Nat) (words : List StoredWord) (p :
Part) :
    (p.completeRead a t i words).fcu.keepSilent = p.fcu.keepSilent ∧ (p.completeRead a t i
    words).fcu.keepTimer = p.fcu.keepTimer ∧ (p.completeRead a t i words).fcu.levelToSend =
    p.fcu.levelToSend ∧ (p.completeRead a t i words).msh.source = p.msh.source ∧ (p.completeRead a t i
    words).msh.credited = p.msh.credited ∧ (p.completeRead a t i words).msh.wheels = p.msh.wheels ∧
    (p.completeRead a t i words).msh.odometer = p.msh.odometer ∧ (p.completeRead a t i
    words).msh.odometerCarry = p.msh.odometerCarry ∧ (p.completeRead a t i words).msh.progressCarry =
    p.msh.progressCarry ∧ (p.completeRead a t i words).msh.periodTimer = p.msh.periodTimer ∧
    (p.completeRead a t i words).dbm.bus = p.dbm.bus ∧ (p.completeRead a t i words).dbm.number =
    p.dbm.number ∧ (p.completeRead a t i words).dbm.resetStops = p.dbm.resetStops ∧ (p.completeRead a t i
    words).sin.bumper = p.sin.bumper ∧ (p.completeRead a t i words).sin.attitude = p.sin.attitude ∧
    (p.completeRead a t i words).sin.range = p.sin.range ∧ (p.completeRead a t i words).sin.environment =
    p.sin.environment ∧ (p.completeRead a t i words).sin.stale = p.sin.stale ∧ (p.completeRead a t i
    words).sin.timers = p.sin.timers ∧ (p.completeRead a t i words).tst.mode = p.tst.mode ∧
    (p.completeRead a t i words).tst.pattern = p.tst.pattern ∧ (p.completeRead a t i
    words).tst.scrubPointer = p.tst.scrubPointer ∧ (p.completeRead a t i words).plp.hunt = p.plp.hunt ∧
    (p.completeRead a t i words).plp.restarting = p.plp.restarting ∧ (p.completeRead a t i
    words).agenda.period = p.agenda.period ∧ (p.completeRead a t i words).agenda.held = p.agenda.held ∧
    (p.completeRead a t i words).agenda.frames = p.agenda.frames ∧ (p.completeRead a t i words).clock =
    p.clock ∧ (p.completeRead a t i words).free = p.free := by
  unfold Part.completeRead
  (try dsimp only)
  (repeat' split) <;> simp

@[simp] theorem Part.answerWrite_keeps (a : Access) (code : AnswerCode) (p : Part) :
    (p.answerWrite a code).fcu = p.fcu ∧ (p.answerWrite a code).scr = p.scr ∧ (p.answerWrite a code).ltr =
    p.ltr ∧ (p.answerWrite a code).sq = p.sq ∧ (p.answerWrite a code).msh = p.msh ∧ (p.answerWrite a
    code).dbm = p.dbm ∧ (p.answerWrite a code).sin = p.sin ∧ (p.answerWrite a code).hre = p.hre ∧
    (p.answerWrite a code).rtu = p.rtu ∧ (p.answerWrite a code).tst = p.tst ∧ (p.answerWrite a
    code).plp.hunt = p.plp.hunt ∧ (p.answerWrite a code).plp.restarting = p.plp.restarting ∧
    (p.answerWrite a code).nco = p.nco ∧ (p.answerWrite a code).agenda.blade = p.agenda.blade ∧
    (p.answerWrite a code).agenda.deferral = p.agenda.deferral ∧ (p.answerWrite a code).agenda.removed =
    p.agenda.removed ∧ (p.answerWrite a code).agenda.starved = p.agenda.starved ∧ (p.answerWrite a
    code).agenda.returning = p.agenda.returning ∧ (p.answerWrite a code).agenda.period = p.agenda.period ∧
    (p.answerWrite a code).agenda.walk = p.agenda.walk ∧ (p.answerWrite a code).agenda.bus = p.agenda.bus
    ∧ (p.answerWrite a code).agenda.store = p.agenda.store ∧ (p.answerWrite a code).agenda.held =
    p.agenda.held ∧ (p.answerWrite a code).agenda.frames = p.agenda.frames ∧ (p.answerWrite a code).clock
    = p.clock ∧ (p.answerWrite a code).serial = p.serial ∧ (p.answerWrite a code).free = p.free := by
  unfold Part.answerWrite
  (try dsimp only)
  (repeat' split) <;> simp

@[simp] theorem Part.completeFull_keeps (a : Access) (t : Table) (i : Nat) (fields : List Int) (p : Part)
:
    (p.completeFull a t i fields).fcu.mode = p.fcu.mode ∧ (p.completeFull a t i fields).fcu.resume =
    p.fcu.resume ∧ (p.completeFull a t i fields).fcu.stopCause = p.fcu.stopCause ∧ (p.completeFull a t i
    fields).fcu.hazardLevel = p.fcu.hazardLevel ∧ (p.completeFull a t i fields).fcu.blade = p.fcu.blade ∧
    (p.completeFull a t i fields).fcu.armRefused = p.fcu.armRefused ∧ (p.completeFull a t i
    fields).fcu.permission = p.fcu.permission ∧ (p.completeFull a t i fields).fcu.keepSilent =
    p.fcu.keepSilent ∧ (p.completeFull a t i fields).fcu.keepTimer = p.fcu.keepTimer ∧ (p.completeFull a t
    i fields).fcu.levelToSend = p.fcu.levelToSend ∧ (p.completeFull a t i fields).scr = p.scr ∧
    (p.completeFull a t i fields).ltr.tracks = p.ltr.tracks ∧ (p.completeFull a t i fields).ltr.zone =
    p.ltr.zone ∧ (p.completeFull a t i fields).ltr.lastZone = p.ltr.lastZone ∧ (p.completeFull a t i
    fields).sq.queue = p.sq.queue ∧ (p.completeFull a t i fields).sq.active = p.sq.active ∧
    (p.completeFull a t i fields).sq.refillArmed = p.sq.refillArmed ∧ (p.completeFull a t i
    fields).sq.starvedArmed = p.sq.starvedArmed ∧ (p.completeFull a t i fields).msh.previousLeft =
    p.msh.previousLeft ∧ (p.completeFull a t i fields).msh.previousRight = p.msh.previousRight ∧
    (p.completeFull a t i fields).msh.errorMemory = p.msh.errorMemory ∧ (p.completeFull a t i
    fields).msh.source = p.msh.source ∧ (p.completeFull a t i fields).msh.credited = p.msh.credited ∧
    (p.completeFull a t i fields).msh.wheels = p.msh.wheels ∧ (p.completeFull a t i fields).msh.odometer =
    p.msh.odometer ∧ (p.completeFull a t i fields).msh.odometerCarry = p.msh.odometerCarry ∧
    (p.completeFull a t i fields).msh.progress = p.msh.progress ∧ (p.completeFull a t i
    fields).msh.progressCarry = p.msh.progressCarry ∧ (p.completeFull a t i fields).msh.periodTimer =
    p.msh.periodTimer ∧ (p.completeFull a t i fields).msh.computation = p.msh.computation ∧
    (p.completeFull a t i fields).dbm.nodes = p.dbm.nodes ∧ (p.completeFull a t i fields).dbm.bus =
    p.dbm.bus ∧ (p.completeFull a t i fields).dbm.interlock = p.dbm.interlock ∧ (p.completeFull a t i
    fields).dbm.number = p.dbm.number ∧ (p.completeFull a t i fields).dbm.resetStops = p.dbm.resetStops ∧
    (p.completeFull a t i fields).sin.bumper = p.sin.bumper ∧ (p.completeFull a t i fields).sin.attitude =
    p.sin.attitude ∧ (p.completeFull a t i fields).sin.range = p.sin.range ∧ (p.completeFull a t i
    fields).sin.environment = p.sin.environment ∧ (p.completeFull a t i fields).sin.stale = p.sin.stale ∧
    (p.completeFull a t i fields).sin.timers = p.sin.timers ∧ (p.completeFull a t i fields).hre = p.hre ∧
    (p.completeFull a t i fields).rtu.stack = p.rtu.stack ∧ (p.completeFull a t i fields).rtu.overflow =
    p.rtu.overflow ∧ (p.completeFull a t i fields).rtu.crossings = p.rtu.crossings ∧ (p.completeFull a t i
    fields).rtu.applying = p.rtu.applying ∧ (p.completeFull a t i fields).rtu.planDue = p.rtu.planDue ∧
    (p.completeFull a t i fields).rtu.planning = p.rtu.planning ∧ (p.completeFull a t i fields).rtu.leg =
    p.rtu.leg ∧ (p.completeFull a t i fields).rtu.activity = p.rtu.activity ∧ (p.completeFull a t i
    fields).rtu.params = p.rtu.params ∧ (p.completeFull a t i fields).rtu.distance = p.rtu.distance ∧
    (p.completeFull a t i fields).rtu.finalApproach = p.rtu.finalApproach ∧ (p.completeFull a t i
    fields).rtu.dockKey = p.rtu.dockKey ∧ (p.completeFull a t i fields).rtu.attempts = p.rtu.attempts ∧
    (p.completeFull a t i fields).rtu.settle = p.rtu.settle ∧ (p.completeFull a t i fields).tst.mode =
    p.tst.mode ∧ (p.completeFull a t i fields).tst.pattern = p.tst.pattern ∧ (p.completeFull a t i
    fields).tst.capture = p.tst.capture ∧ (p.completeFull a t i fields).tst.log = p.tst.log ∧
    (p.completeFull a t i fields).tst.scrubPointer = p.tst.scrubPointer ∧ (p.completeFull a t i
    fields).plp.hunt = p.plp.hunt ∧ (p.completeFull a t i fields).plp.restarting = p.plp.restarting ∧
    (p.completeFull a t i fields).agenda.deferral = p.agenda.deferral ∧ (p.completeFull a t i
    fields).agenda.removed = p.agenda.removed ∧ (p.completeFull a t i fields).agenda.starved =
    p.agenda.starved ∧ (p.completeFull a t i fields).agenda.returning = p.agenda.returning ∧
    (p.completeFull a t i fields).agenda.period = p.agenda.period ∧ (p.completeFull a t i
    fields).agenda.walk = p.agenda.walk ∧ (p.completeFull a t i fields).agenda.bus = p.agenda.bus ∧
    (p.completeFull a t i fields).agenda.held = p.agenda.held ∧ (p.completeFull a t i
    fields).agenda.frames = p.agenda.frames ∧ (p.completeFull a t i fields).clock = p.clock ∧
    (p.completeFull a t i fields).serial = p.serial ∧ (p.completeFull a t i fields).free = p.free := by
  unfold Part.completeFull
  (try dsimp only)
  (repeat' split) <;> simp

@[simp] theorem Part.completePartial_keeps (a : Access) (t : Table) (i : Nat) (outcome : PartialOutcome)
(p : Part) :
    (p.completePartial a t i outcome).fcu.mode = p.fcu.mode ∧ (p.completePartial a t i outcome).fcu.resume
    = p.fcu.resume ∧ (p.completePartial a t i outcome).fcu.stopCause = p.fcu.stopCause ∧
    (p.completePartial a t i outcome).fcu.hazardLevel = p.fcu.hazardLevel ∧ (p.completePartial a t i
    outcome).fcu.blade = p.fcu.blade ∧ (p.completePartial a t i outcome).fcu.armRefused = p.fcu.armRefused
    ∧ (p.completePartial a t i outcome).fcu.permission = p.fcu.permission ∧ (p.completePartial a t i
    outcome).fcu.keepSilent = p.fcu.keepSilent ∧ (p.completePartial a t i outcome).fcu.keepTimer =
    p.fcu.keepTimer ∧ (p.completePartial a t i outcome).fcu.levelToSend = p.fcu.levelToSend ∧
    (p.completePartial a t i outcome).scr = p.scr ∧ (p.completePartial a t i outcome).ltr.tracks =
    p.ltr.tracks ∧ (p.completePartial a t i outcome).ltr.zone = p.ltr.zone ∧ (p.completePartial a t i
    outcome).ltr.lastZone = p.ltr.lastZone ∧ (p.completePartial a t i outcome).sq.queue = p.sq.queue ∧
    (p.completePartial a t i outcome).sq.active = p.sq.active ∧ (p.completePartial a t i
    outcome).sq.refillArmed = p.sq.refillArmed ∧ (p.completePartial a t i outcome).sq.starvedArmed =
    p.sq.starvedArmed ∧ (p.completePartial a t i outcome).msh.previousLeft = p.msh.previousLeft ∧
    (p.completePartial a t i outcome).msh.previousRight = p.msh.previousRight ∧ (p.completePartial a t i
    outcome).msh.errorMemory = p.msh.errorMemory ∧ (p.completePartial a t i outcome).msh.source =
    p.msh.source ∧ (p.completePartial a t i outcome).msh.credited = p.msh.credited ∧ (p.completePartial a
    t i outcome).msh.wheels = p.msh.wheels ∧ (p.completePartial a t i outcome).msh.odometer =
    p.msh.odometer ∧ (p.completePartial a t i outcome).msh.odometerCarry = p.msh.odometerCarry ∧
    (p.completePartial a t i outcome).msh.progress = p.msh.progress ∧ (p.completePartial a t i
    outcome).msh.progressCarry = p.msh.progressCarry ∧ (p.completePartial a t i outcome).msh.periodTimer =
    p.msh.periodTimer ∧ (p.completePartial a t i outcome).msh.computation = p.msh.computation ∧
    (p.completePartial a t i outcome).dbm.nodes = p.dbm.nodes ∧ (p.completePartial a t i outcome).dbm.bus
    = p.dbm.bus ∧ (p.completePartial a t i outcome).dbm.interlock = p.dbm.interlock ∧ (p.completePartial a
    t i outcome).dbm.number = p.dbm.number ∧ (p.completePartial a t i outcome).dbm.resetStops =
    p.dbm.resetStops ∧ (p.completePartial a t i outcome).sin.bumper = p.sin.bumper ∧ (p.completePartial a
    t i outcome).sin.attitude = p.sin.attitude ∧ (p.completePartial a t i outcome).sin.range = p.sin.range
    ∧ (p.completePartial a t i outcome).sin.environment = p.sin.environment ∧ (p.completePartial a t i
    outcome).sin.stale = p.sin.stale ∧ (p.completePartial a t i outcome).sin.timers = p.sin.timers ∧
    (p.completePartial a t i outcome).hre = p.hre ∧ (p.completePartial a t i outcome).rtu.stack =
    p.rtu.stack ∧ (p.completePartial a t i outcome).rtu.overflow = p.rtu.overflow ∧ (p.completePartial a t
    i outcome).rtu.crossings = p.rtu.crossings ∧ (p.completePartial a t i outcome).rtu.applying =
    p.rtu.applying ∧ (p.completePartial a t i outcome).rtu.planDue = p.rtu.planDue ∧ (p.completePartial a
    t i outcome).rtu.planning = p.rtu.planning ∧ (p.completePartial a t i outcome).rtu.leg = p.rtu.leg ∧
    (p.completePartial a t i outcome).rtu.activity = p.rtu.activity ∧ (p.completePartial a t i
    outcome).rtu.params = p.rtu.params ∧ (p.completePartial a t i outcome).rtu.distance = p.rtu.distance ∧
    (p.completePartial a t i outcome).rtu.finalApproach = p.rtu.finalApproach ∧ (p.completePartial a t i
    outcome).rtu.dockKey = p.rtu.dockKey ∧ (p.completePartial a t i outcome).rtu.attempts = p.rtu.attempts
    ∧ (p.completePartial a t i outcome).rtu.settle = p.rtu.settle ∧ (p.completePartial a t i
    outcome).tst.poisoned = p.tst.poisoned ∧ (p.completePartial a t i outcome).tst.mode = p.tst.mode ∧
    (p.completePartial a t i outcome).tst.pattern = p.tst.pattern ∧ (p.completePartial a t i
    outcome).tst.capture = p.tst.capture ∧ (p.completePartial a t i outcome).tst.scrubPointer =
    p.tst.scrubPointer ∧ (p.completePartial a t i outcome).plp.hunt = p.plp.hunt ∧ (p.completePartial a t
    i outcome).plp.restarting = p.plp.restarting ∧ (p.completePartial a t i outcome).agenda.deferral =
    p.agenda.deferral ∧ (p.completePartial a t i outcome).agenda.removed = p.agenda.removed ∧
    (p.completePartial a t i outcome).agenda.starved = p.agenda.starved ∧ (p.completePartial a t i
    outcome).agenda.returning = p.agenda.returning ∧ (p.completePartial a t i outcome).agenda.period =
    p.agenda.period ∧ (p.completePartial a t i outcome).agenda.walk = p.agenda.walk ∧ (p.completePartial a
    t i outcome).agenda.bus = p.agenda.bus ∧ (p.completePartial a t i outcome).agenda.held = p.agenda.held
    ∧ (p.completePartial a t i outcome).agenda.frames = p.agenda.frames ∧ (p.completePartial a t i
    outcome).clock = p.clock ∧ (p.completePartial a t i outcome).serial = p.serial ∧ (p.completePartial a
    t i outcome).free = p.free := by
  unfold Part.completePartial
  (try dsimp only)
  (repeat' split) <;> simp

@[simp] theorem Part.scrubConsequence_keeps (n : Nat) (e : FoundError) (p : Part) :
    (p.scrubConsequence n e).fcu.armRefused = p.fcu.armRefused ∧ (p.scrubConsequence n e).fcu.keepSilent =
    p.fcu.keepSilent ∧ (p.scrubConsequence n e).fcu.keepTimer = p.fcu.keepTimer ∧ (p.scrubConsequence n
    e).fcu.keepLimit = p.fcu.keepLimit ∧ (p.scrubConsequence n e).fcu.silentAction = p.fcu.silentAction ∧
    (p.scrubConsequence n e).fcu.zoneBladeMax = p.fcu.zoneBladeMax ∧ (p.scrubConsequence n
    e).fcu.levelToSend = p.fcu.levelToSend ∧ (p.scrubConsequence n e).scr = p.scr ∧ (p.scrubConsequence n
    e).ltr.tracks = p.ltr.tracks ∧ (p.scrubConsequence n e).ltr.zone = p.ltr.zone ∧ (p.scrubConsequence n
    e).ltr.lastZone = p.ltr.lastZone ∧ (p.scrubConsequence n e).ltr.spacing = p.ltr.spacing ∧
    (p.scrubConsequence n e).sq.refillArmed = p.sq.refillArmed ∧ (p.scrubConsequence n e).sq.starvedArmed
    = p.sq.starvedArmed ∧ (p.scrubConsequence n e).sq.refillMark = p.sq.refillMark ∧ (p.scrubConsequence n
    e).msh.source = p.msh.source ∧ (p.scrubConsequence n e).msh.credited = p.msh.credited ∧
    (p.scrubConsequence n e).msh.wheels = p.msh.wheels ∧ (p.scrubConsequence n e).msh.odometer =
    p.msh.odometer ∧ (p.scrubConsequence n e).msh.odometerCarry = p.msh.odometerCarry ∧
    (p.scrubConsequence n e).msh.progress = p.msh.progress ∧ (p.scrubConsequence n e).msh.progressCarry =
    p.msh.progressCarry ∧ (p.scrubConsequence n e).msh.periodTimer = p.msh.periodTimer ∧
    (p.scrubConsequence n e).msh.kilotick = p.msh.kilotick ∧ (p.scrubConsequence n e).msh.maneuverSpeed =
    p.msh.maneuverSpeed ∧ (p.scrubConsequence n e).dbm.bus = p.dbm.bus
    ∧ (p.scrubConsequence n e).dbm.number = p.dbm.number ∧ (p.scrubConsequence n e).dbm.resetStops =
    p.dbm.resetStops ∧ (p.scrubConsequence n e).dbm.responseLimit = p.dbm.responseLimit ∧
    (p.scrubConsequence n e).dbm.holdLimit = p.dbm.holdLimit ∧ (p.scrubConsequence n e).sin = p.sin ∧
    (p.scrubConsequence n e).hre.queue = p.hre.queue ∧ (p.scrubConsequence n e).hre.walk = p.hre.walk ∧
    (p.scrubConsequence n e).rtu.applying = p.rtu.applying ∧ (p.scrubConsequence n e).rtu.params =
    p.rtu.params ∧ (p.scrubConsequence n e).rtu.distance = p.rtu.distance ∧ (p.scrubConsequence n
    e).rtu.dockKey = p.rtu.dockKey ∧ (p.scrubConsequence n e).rtu.copies = p.rtu.copies ∧
    (p.scrubConsequence n e).tst.mode = p.tst.mode ∧ (p.scrubConsequence n e).tst.pattern = p.tst.pattern
    ∧ (p.scrubConsequence n e).tst.capture = p.tst.capture ∧ (p.scrubConsequence n e).tst.log = p.tst.log
    ∧ (p.scrubConsequence n e).tst.scrubPointer = p.tst.scrubPointer ∧ (p.scrubConsequence n
    e).tst.scrubTimer = p.tst.scrubTimer ∧ (p.scrubConsequence n e).tst.scrubPeriod = p.tst.scrubPeriod ∧
    (p.scrubConsequence n e).plp.hunt = p.plp.hunt ∧ (p.scrubConsequence n e).plp.rx = p.plp.rx ∧
    (p.scrubConsequence n e).plp.op = p.plp.op ∧ (p.scrubConsequence n e).plp.restarting =
    p.plp.restarting ∧ (p.scrubConsequence n e).nco.urgentLevel = p.nco.urgentLevel ∧ (p.scrubConsequence
    n e).agenda.period = p.agenda.period ∧ (p.scrubConsequence n e).agenda.walk = p.agenda.walk ∧
    (p.scrubConsequence n e).agenda.port = p.agenda.port ∧ (p.scrubConsequence n e).agenda.held =
    p.agenda.held ∧ (p.scrubConsequence n e).agenda.frames = p.agenda.frames ∧ (p.scrubConsequence n
    e).clock = p.clock ∧ (p.scrubConsequence n e).serial = p.serial ∧ (p.scrubConsequence n e).free =
    p.free := by
  unfold Part.scrubConsequence
  (try dsimp only)
  (repeat' split) <;> simp

@[simp] theorem Part.completeScrub_keeps (n : Nat) (w : StoredWord) (p : Part) :
    (p.completeScrub n w).fcu.armRefused = p.fcu.armRefused ∧ (p.completeScrub n w).fcu.keepSilent =
    p.fcu.keepSilent ∧ (p.completeScrub n w).fcu.keepTimer = p.fcu.keepTimer ∧ (p.completeScrub n
    w).fcu.keepLimit = p.fcu.keepLimit ∧ (p.completeScrub n w).fcu.silentAction = p.fcu.silentAction ∧
    (p.completeScrub n w).fcu.zoneBladeMax = p.fcu.zoneBladeMax ∧ (p.completeScrub n w).fcu.levelToSend =
    p.fcu.levelToSend ∧ (p.completeScrub n w).scr = p.scr ∧ (p.completeScrub n w).ltr.tracks =
    p.ltr.tracks ∧ (p.completeScrub n w).ltr.zone = p.ltr.zone ∧ (p.completeScrub n w).ltr.lastZone =
    p.ltr.lastZone ∧ (p.completeScrub n w).ltr.spacing = p.ltr.spacing ∧ (p.completeScrub n
    w).sq.refillArmed = p.sq.refillArmed ∧ (p.completeScrub n w).sq.starvedArmed = p.sq.starvedArmed ∧
    (p.completeScrub n w).sq.refillMark = p.sq.refillMark ∧ (p.completeScrub n w).msh.source =
    p.msh.source ∧ (p.completeScrub n w).msh.credited = p.msh.credited ∧ (p.completeScrub n w).msh.wheels
    = p.msh.wheels ∧ (p.completeScrub n w).msh.odometer = p.msh.odometer ∧ (p.completeScrub n
    w).msh.odometerCarry = p.msh.odometerCarry ∧ (p.completeScrub n w).msh.progress = p.msh.progress ∧
    (p.completeScrub n w).msh.progressCarry = p.msh.progressCarry ∧ (p.completeScrub n w).msh.periodTimer
    = p.msh.periodTimer ∧ (p.completeScrub n w).msh.kilotick = p.msh.kilotick ∧ (p.completeScrub n
    w).msh.maneuverSpeed = p.msh.maneuverSpeed ∧ (p.completeScrub n
    w).dbm.bus = p.dbm.bus ∧ (p.completeScrub n w).dbm.number = p.dbm.number ∧ (p.completeScrub n
    w).dbm.resetStops = p.dbm.resetStops ∧ (p.completeScrub n w).dbm.responseLimit = p.dbm.responseLimit ∧
    (p.completeScrub n w).dbm.holdLimit = p.dbm.holdLimit ∧ (p.completeScrub n w).sin = p.sin ∧
    (p.completeScrub n w).hre.queue = p.hre.queue ∧ (p.completeScrub n w).hre.walk = p.hre.walk ∧
    (p.completeScrub n w).rtu.applying = p.rtu.applying ∧ (p.completeScrub n w).rtu.params = p.rtu.params
    ∧ (p.completeScrub n w).rtu.distance = p.rtu.distance ∧ (p.completeScrub n w).rtu.dockKey =
    p.rtu.dockKey ∧ (p.completeScrub n w).rtu.copies = p.rtu.copies ∧ (p.completeScrub n w).tst.mode =
    p.tst.mode ∧ (p.completeScrub n w).tst.pattern = p.tst.pattern ∧ (p.completeScrub n w).tst.capture =
    p.tst.capture ∧ (p.completeScrub n w).tst.scrubTimer = p.tst.scrubTimer ∧ (p.completeScrub n
    w).tst.scrubPeriod = p.tst.scrubPeriod ∧ (p.completeScrub n w).plp.hunt = p.plp.hunt ∧
    (p.completeScrub n w).plp.rx = p.plp.rx ∧ (p.completeScrub n w).plp.op = p.plp.op ∧ (p.completeScrub n
    w).plp.restarting = p.plp.restarting ∧ (p.completeScrub n w).nco.urgentLevel = p.nco.urgentLevel ∧
    (p.completeScrub n w).agenda.period = p.agenda.period ∧ (p.completeScrub n w).agenda.walk =
    p.agenda.walk ∧ (p.completeScrub n w).agenda.port = p.agenda.port ∧ (p.completeScrub n w).agenda.held
    = p.agenda.held ∧ (p.completeScrub n w).agenda.frames = p.agenda.frames ∧ (p.completeScrub n w).clock
    = p.clock ∧ (p.completeScrub n w).serial = p.serial ∧ (p.completeScrub n w).free = p.free := by
  unfold Part.completeScrub
  (try dsimp only)
  (repeat' split) <;> simp

@[simp] theorem Part.scrubExpired_keeps (p : Part) :
    p.scrubExpired.fcu = p.fcu ∧ p.scrubExpired.scr = p.scr ∧ p.scrubExpired.ltr = p.ltr ∧
    p.scrubExpired.sq = p.sq ∧ p.scrubExpired.msh = p.msh ∧ p.scrubExpired.dbm = p.dbm ∧
    p.scrubExpired.sin = p.sin ∧ p.scrubExpired.hre = p.hre ∧ p.scrubExpired.rtu = p.rtu ∧
    p.scrubExpired.tst.poisoned = p.tst.poisoned ∧ p.scrubExpired.tst.mode = p.tst.mode ∧
    p.scrubExpired.tst.pattern = p.tst.pattern ∧ p.scrubExpired.tst.capture = p.tst.capture ∧
    p.scrubExpired.tst.log = p.tst.log ∧ p.scrubExpired.tst.scrubPointer = p.tst.scrubPointer ∧
    p.scrubExpired.tst.scrubPeriod = p.tst.scrubPeriod ∧ p.scrubExpired.tst.current = p.tst.current ∧
    p.scrubExpired.plp = p.plp ∧ p.scrubExpired.nco = p.nco ∧ p.scrubExpired.agenda.blade = p.agenda.blade
    ∧ p.scrubExpired.agenda.deferral = p.agenda.deferral ∧ p.scrubExpired.agenda.removed =
    p.agenda.removed ∧ p.scrubExpired.agenda.starved = p.agenda.starved ∧ p.scrubExpired.agenda.returning
    = p.agenda.returning ∧ p.scrubExpired.agenda.period = p.agenda.period ∧ p.scrubExpired.agenda.walk =
    p.agenda.walk ∧ p.scrubExpired.agenda.bus = p.agenda.bus ∧ p.scrubExpired.agenda.port = p.agenda.port
    ∧ p.scrubExpired.agenda.held = p.agenda.held ∧ p.scrubExpired.agenda.frames = p.agenda.frames ∧
    p.scrubExpired.clock = p.clock ∧ p.scrubExpired.serial = p.serial ∧ p.scrubExpired.free = p.free := by
  unfold Part.scrubExpired
  (try dsimp only)
  (repeat' split) <;> simp

@[simp] theorem Part.grantStoreFrom_keeps (x0 : Nat) (p : Part) :
    (p.grantStoreFrom x0).fcu = p.fcu ∧ (p.grantStoreFrom x0).scr = p.scr ∧ (p.grantStoreFrom x0).ltr =
    p.ltr ∧ (p.grantStoreFrom x0).sq = p.sq ∧ (p.grantStoreFrom x0).msh = p.msh ∧ (p.grantStoreFrom
    x0).dbm = p.dbm ∧ (p.grantStoreFrom x0).sin = p.sin ∧ (p.grantStoreFrom x0).hre = p.hre ∧
    (p.grantStoreFrom x0).rtu = p.rtu ∧ (p.grantStoreFrom x0).tst.poisoned = p.tst.poisoned ∧
    (p.grantStoreFrom x0).tst.mode = p.tst.mode ∧ (p.grantStoreFrom x0).tst.pattern = p.tst.pattern ∧
    (p.grantStoreFrom x0).tst.capture = p.tst.capture ∧ (p.grantStoreFrom x0).tst.log = p.tst.log ∧
    (p.grantStoreFrom x0).tst.scrubPointer = p.tst.scrubPointer ∧ (p.grantStoreFrom x0).tst.scrubTimer =
    p.tst.scrubTimer ∧ (p.grantStoreFrom x0).tst.scrubPeriod = p.tst.scrubPeriod ∧ (p.grantStoreFrom
    x0).plp.hunt = p.plp.hunt ∧ (p.grantStoreFrom x0).plp.restarting = p.plp.restarting ∧
    (p.grantStoreFrom x0).nco = p.nco ∧ (p.grantStoreFrom x0).agenda.blade = p.agenda.blade ∧
    (p.grantStoreFrom x0).agenda.deferral = p.agenda.deferral ∧ (p.grantStoreFrom x0).agenda.removed =
    p.agenda.removed ∧ (p.grantStoreFrom x0).agenda.starved = p.agenda.starved ∧ (p.grantStoreFrom
    x0).agenda.returning = p.agenda.returning ∧ (p.grantStoreFrom x0).agenda.period = p.agenda.period ∧
    (p.grantStoreFrom x0).agenda.walk = p.agenda.walk ∧ (p.grantStoreFrom x0).agenda.bus = p.agenda.bus ∧
    (p.grantStoreFrom x0).agenda.store = p.agenda.store ∧ (p.grantStoreFrom x0).agenda.held =
    p.agenda.held ∧ (p.grantStoreFrom x0).agenda.frames = p.agenda.frames ∧ (p.grantStoreFrom x0).clock =
    p.clock ∧ (p.grantStoreFrom x0).serial = p.serial ∧ (p.grantStoreFrom x0).free = p.free := by
  induction x0 generalizing p with
  | zero => simp [Part.grantStoreFrom]
  | succ n ih => simp only [Part.grantStoreFrom]; (repeat' split) <;> simp_all

@[simp] theorem Part.grantStore_keeps (p : Part) :
    p.grantStore.fcu = p.fcu ∧ p.grantStore.scr = p.scr ∧ p.grantStore.ltr = p.ltr ∧ p.grantStore.sq =
    p.sq ∧ p.grantStore.msh = p.msh ∧ p.grantStore.dbm = p.dbm ∧ p.grantStore.sin = p.sin ∧
    p.grantStore.hre = p.hre ∧ p.grantStore.rtu = p.rtu ∧ p.grantStore.tst.poisoned = p.tst.poisoned ∧
    p.grantStore.tst.mode = p.tst.mode ∧ p.grantStore.tst.pattern = p.tst.pattern ∧
    p.grantStore.tst.capture = p.tst.capture ∧ p.grantStore.tst.log = p.tst.log ∧
    p.grantStore.tst.scrubPointer = p.tst.scrubPointer ∧ p.grantStore.tst.scrubTimer = p.tst.scrubTimer ∧
    p.grantStore.tst.scrubPeriod = p.tst.scrubPeriod ∧ p.grantStore.plp.hunt = p.plp.hunt ∧
    p.grantStore.plp.restarting = p.plp.restarting ∧ p.grantStore.nco = p.nco ∧ p.grantStore.agenda.blade
    = p.agenda.blade ∧ p.grantStore.agenda.deferral = p.agenda.deferral ∧ p.grantStore.agenda.removed =
    p.agenda.removed ∧ p.grantStore.agenda.starved = p.agenda.starved ∧ p.grantStore.agenda.returning =
    p.agenda.returning ∧ p.grantStore.agenda.period = p.agenda.period ∧ p.grantStore.agenda.walk =
    p.agenda.walk ∧ p.grantStore.agenda.bus = p.agenda.bus ∧ p.grantStore.agenda.store = p.agenda.store ∧
    p.grantStore.agenda.held = p.agenda.held ∧ p.grantStore.agenda.frames = p.agenda.frames ∧
    p.grantStore.clock = p.clock ∧ p.grantStore.serial = p.serial ∧ p.grantStore.free = p.free := by
  unfold Part.grantStore
  (try dsimp only)
  (repeat' split) <;> simp

@[simp] theorem Part.settleMotion_keeps (p : Part) :
    p.settleMotion.fcu.keepSilent = p.fcu.keepSilent ∧ p.settleMotion.fcu.keepTimer = p.fcu.keepTimer ∧
    p.settleMotion.fcu.keepLimit = p.fcu.keepLimit ∧ p.settleMotion.fcu.silentAction = p.fcu.silentAction
    ∧ p.settleMotion.fcu.zoneBladeMax = p.fcu.zoneBladeMax ∧ p.settleMotion.fcu.levelToSend =
    p.fcu.levelToSend ∧ p.settleMotion.scr = p.scr ∧ p.settleMotion.ltr = p.ltr ∧
    p.settleMotion.sq.refillArmed = p.sq.refillArmed ∧ p.settleMotion.sq.starvedArmed = p.sq.starvedArmed
    ∧ p.settleMotion.sq.refillMark = p.sq.refillMark ∧ p.settleMotion.msh.source = p.msh.source ∧
    p.settleMotion.msh.credited = p.msh.credited ∧ p.settleMotion.msh.wheels = p.msh.wheels ∧
    p.settleMotion.msh.odometer = p.msh.odometer ∧ p.settleMotion.msh.odometerCarry = p.msh.odometerCarry
    ∧ p.settleMotion.msh.progressCarry = p.msh.progressCarry ∧ p.settleMotion.msh.periodTimer =
    p.msh.periodTimer ∧ p.settleMotion.msh.kilotick = p.msh.kilotick ∧ p.settleMotion.msh.maneuverSpeed =
    p.msh.maneuverSpeed ∧ p.settleMotion.dbm.bus = p.dbm.bus
    ∧ p.settleMotion.dbm.number = p.dbm.number ∧ p.settleMotion.dbm.resetStops = p.dbm.resetStops ∧
    p.settleMotion.dbm.responseLimit = p.dbm.responseLimit ∧ p.settleMotion.dbm.holdLimit =
    p.dbm.holdLimit ∧ p.settleMotion.sin = p.sin ∧ p.settleMotion.hre.queue = p.hre.queue ∧
    p.settleMotion.hre.walk = p.hre.walk ∧ p.settleMotion.rtu.copies = p.rtu.copies ∧
    p.settleMotion.tst.poisoned = p.tst.poisoned ∧ p.settleMotion.tst.mode = p.tst.mode ∧
    p.settleMotion.tst.pattern = p.tst.pattern ∧ p.settleMotion.tst.capture = p.tst.capture ∧
    p.settleMotion.tst.log = p.tst.log ∧ p.settleMotion.tst.scrubPointer = p.tst.scrubPointer ∧
    p.settleMotion.tst.scrubTimer = p.tst.scrubTimer ∧ p.settleMotion.tst.scrubPeriod = p.tst.scrubPeriod
    ∧ p.settleMotion.plp.hunt = p.plp.hunt ∧ p.settleMotion.plp.rx = p.plp.rx ∧ p.settleMotion.plp.op =
    p.plp.op ∧ p.settleMotion.plp.restarting = p.plp.restarting ∧ p.settleMotion.nco.urgentLevel =
    p.nco.urgentLevel ∧ p.settleMotion.agenda.period = p.agenda.period ∧ p.settleMotion.agenda.walk =
    p.agenda.walk ∧ p.settleMotion.agenda.port = p.agenda.port ∧ p.settleMotion.agenda.held =
    p.agenda.held ∧ p.settleMotion.agenda.frames = p.agenda.frames ∧ p.settleMotion.clock = p.clock ∧
    p.settleMotion.free = p.free := by
  unfold Part.settleMotion Part.passIf
  dsimp only
  (repeat' split) <;> simp

@[simp] theorem Part.settleGrants_keeps (p : Part) :
    p.settleGrants.fcu = p.fcu ∧ p.settleGrants.scr = p.scr ∧ p.settleGrants.ltr = p.ltr ∧
    p.settleGrants.sq = p.sq ∧ p.settleGrants.msh.previousLeft = p.msh.previousLeft ∧
    p.settleGrants.msh.previousRight = p.msh.previousRight ∧ p.settleGrants.msh.errorMemory =
    p.msh.errorMemory ∧ p.settleGrants.msh.credited = p.msh.credited ∧ p.settleGrants.msh.wheels =
    p.msh.wheels ∧ p.settleGrants.msh.odometer = p.msh.odometer ∧ p.settleGrants.msh.odometerCarry =
    p.msh.odometerCarry ∧ p.settleGrants.msh.progress = p.msh.progress ∧ p.settleGrants.msh.progressCarry
    = p.msh.progressCarry ∧ p.settleGrants.msh.periodTimer = p.msh.periodTimer ∧
    p.settleGrants.msh.kilotick = p.msh.kilotick ∧ p.settleGrants.msh.maneuverSpeed = p.msh.maneuverSpeed
    ∧ p.settleGrants.dbm = p.dbm ∧ p.settleGrants.sin = p.sin
    ∧ p.settleGrants.hre.active = p.hre.active ∧ p.settleGrants.hre.pending = p.hre.pending ∧
    p.settleGrants.rtu = p.rtu ∧ p.settleGrants.tst.poisoned = p.tst.poisoned ∧ p.settleGrants.tst.mode =
    p.tst.mode ∧ p.settleGrants.tst.pattern = p.tst.pattern ∧ p.settleGrants.tst.capture = p.tst.capture ∧
    p.settleGrants.tst.log = p.tst.log ∧ p.settleGrants.tst.scrubPointer = p.tst.scrubPointer ∧
    p.settleGrants.tst.scrubTimer = p.tst.scrubTimer ∧ p.settleGrants.tst.scrubPeriod = p.tst.scrubPeriod
    ∧ p.settleGrants.plp.hunt = p.plp.hunt ∧ p.settleGrants.plp.restarting = p.plp.restarting ∧
    p.settleGrants.nco = p.nco ∧ p.settleGrants.agenda.blade = p.agenda.blade ∧
    p.settleGrants.agenda.deferral = p.agenda.deferral ∧ p.settleGrants.agenda.removed = p.agenda.removed
    ∧ p.settleGrants.agenda.starved = p.agenda.starved ∧ p.settleGrants.agenda.returning =
    p.agenda.returning ∧ p.settleGrants.agenda.period = p.agenda.period ∧ p.settleGrants.agenda.walk =
    p.agenda.walk ∧ p.settleGrants.agenda.bus = p.agenda.bus ∧ p.settleGrants.agenda.held = p.agenda.held
    ∧ p.settleGrants.agenda.frames = p.agenda.frames ∧ p.settleGrants.clock = p.clock ∧
    p.settleGrants.serial = p.serial ∧ p.settleGrants.free = p.free := by
  unfold Part.settleGrants Part.passIf
  dsimp only
  (repeat' split) <;> simp

@[simp] theorem Part.settle_keeps (p : Part) :
    p.settle.fcu.keepSilent = p.fcu.keepSilent ∧ p.settle.fcu.keepTimer = p.fcu.keepTimer ∧
    p.settle.fcu.keepLimit = p.fcu.keepLimit ∧ p.settle.fcu.silentAction = p.fcu.silentAction ∧
    p.settle.fcu.zoneBladeMax = p.fcu.zoneBladeMax ∧ p.settle.fcu.levelToSend = p.fcu.levelToSend ∧
    p.settle.scr = p.scr ∧ p.settle.ltr = p.ltr ∧ p.settle.sq.refillArmed = p.sq.refillArmed ∧
    p.settle.sq.starvedArmed = p.sq.starvedArmed ∧ p.settle.sq.refillMark = p.sq.refillMark ∧
    p.settle.msh.credited = p.msh.credited ∧ p.settle.msh.wheels = p.msh.wheels ∧ p.settle.msh.odometer =
    p.msh.odometer ∧ p.settle.msh.odometerCarry = p.msh.odometerCarry ∧ p.settle.msh.progressCarry =
    p.msh.progressCarry ∧ p.settle.msh.periodTimer = p.msh.periodTimer ∧ p.settle.msh.kilotick =
    p.msh.kilotick ∧ p.settle.msh.maneuverSpeed =
    p.msh.maneuverSpeed ∧ p.settle.dbm.bus = p.dbm.bus ∧ p.settle.dbm.number = p.dbm.number ∧
    p.settle.dbm.resetStops = p.dbm.resetStops ∧ p.settle.dbm.responseLimit = p.dbm.responseLimit ∧
    p.settle.dbm.holdLimit = p.dbm.holdLimit ∧ p.settle.sin = p.sin ∧ p.settle.rtu.copies = p.rtu.copies ∧
    p.settle.tst.poisoned = p.tst.poisoned ∧ p.settle.tst.mode = p.tst.mode ∧ p.settle.tst.pattern =
    p.tst.pattern ∧ p.settle.tst.capture = p.tst.capture ∧ p.settle.tst.log = p.tst.log ∧
    p.settle.tst.scrubPointer = p.tst.scrubPointer ∧ p.settle.tst.scrubTimer = p.tst.scrubTimer ∧
    p.settle.tst.scrubPeriod = p.tst.scrubPeriod ∧ p.settle.plp.hunt = p.plp.hunt ∧
    p.settle.plp.restarting = p.plp.restarting ∧ p.settle.nco.urgentLevel = p.nco.urgentLevel ∧
    p.settle.clock = p.clock ∧ p.settle.free = p.free := by
  unfold Part.settle
  (try dsimp only)
  (repeat' split) <;> simp

@[simp] theorem Part.conclude_keeps (p : Part) :
    p.conclude.fcu.mode = p.fcu.mode ∧ p.conclude.fcu.resume = p.fcu.resume ∧ p.conclude.fcu.stopCause =
    p.fcu.stopCause ∧ p.conclude.fcu.hazardLevel = p.fcu.hazardLevel ∧ p.conclude.fcu.keepSilent =
    p.fcu.keepSilent ∧ p.conclude.fcu.keepTimer = p.fcu.keepTimer ∧ p.conclude.fcu.keepLimit =
    p.fcu.keepLimit ∧ p.conclude.fcu.silentAction = p.fcu.silentAction ∧ p.conclude.fcu.zoneBladeMax =
    p.fcu.zoneBladeMax ∧ p.conclude.scr = p.scr ∧ p.conclude.ltr = p.ltr ∧ p.conclude.sq.queue =
    p.sq.queue ∧ p.conclude.sq.active = p.sq.active ∧ p.conclude.sq.refillMark = p.sq.refillMark ∧
    p.conclude.msh.previousLeft = p.msh.previousLeft ∧ p.conclude.msh.previousRight = p.msh.previousRight
    ∧ p.conclude.msh.errorMemory = p.msh.errorMemory ∧ p.conclude.msh.source = p.msh.source ∧
    p.conclude.msh.credited = p.msh.credited ∧ p.conclude.msh.wheels = p.msh.wheels ∧
    p.conclude.msh.odometer = p.msh.odometer ∧ p.conclude.msh.odometerCarry = p.msh.odometerCarry ∧
    p.conclude.msh.progress = p.msh.progress ∧ p.conclude.msh.progressCarry = p.msh.progressCarry ∧
    p.conclude.msh.periodTimer = p.msh.periodTimer ∧ p.conclude.msh.kilotick = p.msh.kilotick ∧
    p.conclude.msh.maneuverSpeed = p.msh.maneuverSpeed ∧
    p.conclude.dbm.resetStops = p.dbm.resetStops ∧ p.conclude.dbm.responseLimit = p.dbm.responseLimit ∧
    p.conclude.dbm.holdLimit = p.dbm.holdLimit ∧ p.conclude.sin = p.sin ∧ p.conclude.hre = p.hre ∧
    p.conclude.rtu = p.rtu ∧ p.conclude.tst = p.tst ∧ p.conclude.plp.hunt = p.plp.hunt ∧ p.conclude.plp.rx
    = p.plp.rx ∧ p.conclude.plp.op = p.plp.op ∧ p.conclude.plp.restarting = p.plp.restarting ∧
    p.conclude.nco.urgentLevel = p.nco.urgentLevel ∧ p.conclude.agenda.deferral = p.agenda.deferral ∧
    p.conclude.agenda.removed = p.agenda.removed ∧ p.conclude.agenda.starved = p.agenda.starved ∧
    p.conclude.agenda.returning = p.agenda.returning ∧ p.conclude.agenda.period = p.agenda.period ∧
    p.conclude.agenda.walk = p.agenda.walk ∧ p.conclude.agenda.store = p.agenda.store ∧
    p.conclude.agenda.port = p.agenda.port ∧ p.conclude.agenda.held = p.agenda.held ∧
    p.conclude.agenda.frames = p.agenda.frames ∧ p.conclude.clock = p.clock ∧ p.conclude.serial = p.serial
    ∧ p.conclude.free = p.free := by
  unfold Part.conclude Part.passIf
  dsimp only
  (repeat' split) <;> simp

@[simp] theorem Part.takeNext_keeps (f : RxFrame) (p : Part) :
    (p.takeNext f).fcu.keepSilent = p.fcu.keepSilent ∧ (p.takeNext f).fcu.keepTimer = p.fcu.keepTimer ∧
    (p.takeNext f).fcu.keepLimit = p.fcu.keepLimit ∧ (p.takeNext f).fcu.silentAction = p.fcu.silentAction
    ∧ (p.takeNext f).fcu.zoneBladeMax = p.fcu.zoneBladeMax ∧ (p.takeNext f).fcu.levelToSend =
    p.fcu.levelToSend ∧ (p.takeNext f).scr = p.scr ∧ (p.takeNext f).ltr = p.ltr ∧ (p.takeNext
    f).sq.refillMark = p.sq.refillMark ∧ (p.takeNext f).msh.source = p.msh.source ∧ (p.takeNext
    f).msh.credited = p.msh.credited ∧ (p.takeNext f).msh.wheels = p.msh.wheels ∧ (p.takeNext
    f).msh.odometer = p.msh.odometer ∧ (p.takeNext f).msh.odometerCarry = p.msh.odometerCarry ∧
    (p.takeNext f).msh.progressCarry = p.msh.progressCarry ∧ (p.takeNext f).msh.periodTimer =
    p.msh.periodTimer ∧ (p.takeNext f).msh.kilotick = p.msh.kilotick ∧ (p.takeNext f).msh.maneuverSpeed =
    p.msh.maneuverSpeed ∧ (p.takeNext f).dbm.bus = p.dbm.bus
    ∧ (p.takeNext f).dbm.number = p.dbm.number ∧ (p.takeNext f).dbm.resetStops = p.dbm.resetStops ∧
    (p.takeNext f).dbm.responseLimit = p.dbm.responseLimit ∧ (p.takeNext f).dbm.holdLimit =
    p.dbm.holdLimit ∧ (p.takeNext f).sin = p.sin ∧ (p.takeNext f).hre.queue = p.hre.queue ∧ (p.takeNext
    f).hre.walk = p.hre.walk ∧ (p.takeNext f).rtu.applying = p.rtu.applying ∧ (p.takeNext f).rtu.params =
    p.rtu.params ∧ (p.takeNext f).rtu.distance = p.rtu.distance ∧ (p.takeNext f).rtu.dockKey =
    p.rtu.dockKey ∧ (p.takeNext f).rtu.copies = p.rtu.copies ∧ (p.takeNext f).plp.hunt = p.plp.hunt ∧
    (p.takeNext f).nco.urgentLevel = p.nco.urgentLevel ∧ (p.takeNext f).agenda.period = p.agenda.period ∧
    (p.takeNext f).agenda.walk = p.agenda.walk ∧ (p.takeNext f).agenda.held = p.agenda.held ∧ (p.takeNext
    f).agenda.frames = p.agenda.frames ∧ (p.takeNext f).clock = p.clock := by
  unfold Part.takeNext
  (try dsimp only)
  (repeat' split) <;> simp

@[simp] theorem Part.serveFrom_keeps (x0 : Nat) (p : Part) :
    (p.serveFrom x0).fcu.keepSilent = p.fcu.keepSilent ∧ (p.serveFrom x0).fcu.keepTimer = p.fcu.keepTimer
    ∧ (p.serveFrom x0).fcu.keepLimit = p.fcu.keepLimit ∧ (p.serveFrom x0).fcu.silentAction =
    p.fcu.silentAction ∧ (p.serveFrom x0).fcu.zoneBladeMax = p.fcu.zoneBladeMax ∧ (p.serveFrom
    x0).fcu.levelToSend = p.fcu.levelToSend ∧ (p.serveFrom x0).scr = p.scr ∧ (p.serveFrom x0).ltr = p.ltr
    ∧ (p.serveFrom x0).sq.refillMark = p.sq.refillMark ∧ (p.serveFrom x0).msh.credited = p.msh.credited ∧
    (p.serveFrom x0).msh.wheels = p.msh.wheels ∧ (p.serveFrom x0).msh.odometer = p.msh.odometer ∧
    (p.serveFrom x0).msh.odometerCarry = p.msh.odometerCarry ∧ (p.serveFrom x0).msh.progressCarry =
    p.msh.progressCarry ∧ (p.serveFrom x0).msh.periodTimer = p.msh.periodTimer ∧ (p.serveFrom
    x0).msh.kilotick = p.msh.kilotick ∧ (p.serveFrom
    x0).msh.maneuverSpeed = p.msh.maneuverSpeed ∧ (p.serveFrom x0).dbm.bus = p.dbm.bus ∧ (p.serveFrom
    x0).dbm.number
    = p.dbm.number ∧ (p.serveFrom x0).dbm.resetStops = p.dbm.resetStops ∧ (p.serveFrom
    x0).dbm.responseLimit = p.dbm.responseLimit ∧ (p.serveFrom x0).dbm.holdLimit = p.dbm.holdLimit ∧
    (p.serveFrom x0).sin = p.sin ∧ (p.serveFrom x0).rtu.copies = p.rtu.copies ∧ (p.serveFrom x0).plp.hunt
    = p.plp.hunt ∧ (p.serveFrom x0).nco.urgentLevel = p.nco.urgentLevel ∧ (p.serveFrom x0).clock = p.clock
    := by
  induction x0 generalizing p with
  | zero => simp [Part.serveFrom]
  | succ n ih => simp only [Part.serveFrom]; (repeat' split) <;> simp_all

@[simp] theorem Part.serve_keeps (p : Part) :
    p.serve.fcu.keepSilent = p.fcu.keepSilent ∧ p.serve.fcu.keepTimer = p.fcu.keepTimer ∧
    p.serve.fcu.keepLimit = p.fcu.keepLimit ∧ p.serve.fcu.silentAction = p.fcu.silentAction ∧
    p.serve.fcu.zoneBladeMax = p.fcu.zoneBladeMax ∧ p.serve.fcu.levelToSend = p.fcu.levelToSend ∧
    p.serve.scr = p.scr ∧ p.serve.ltr = p.ltr ∧ p.serve.sq.refillMark = p.sq.refillMark ∧
    p.serve.msh.credited = p.msh.credited ∧ p.serve.msh.wheels = p.msh.wheels ∧ p.serve.msh.odometer =
    p.msh.odometer ∧ p.serve.msh.odometerCarry = p.msh.odometerCarry ∧ p.serve.msh.progressCarry =
    p.msh.progressCarry ∧ p.serve.msh.periodTimer = p.msh.periodTimer ∧ p.serve.msh.kilotick =
    p.msh.kilotick ∧ p.serve.msh.maneuverSpeed =
    p.msh.maneuverSpeed ∧ p.serve.dbm.bus = p.dbm.bus ∧ p.serve.dbm.number = p.dbm.number ∧
    p.serve.dbm.resetStops = p.dbm.resetStops ∧ p.serve.dbm.responseLimit = p.dbm.responseLimit ∧
    p.serve.dbm.holdLimit = p.dbm.holdLimit ∧ p.serve.sin = p.sin ∧ p.serve.rtu.copies = p.rtu.copies ∧
    p.serve.plp.hunt = p.plp.hunt ∧ p.serve.nco.urgentLevel = p.nco.urgentLevel ∧ p.serve.clock = p.clock
    := by
  unfold Part.serve
  (try dsimp only)
  (repeat' split) <;> simp

@[simp] theorem Part.finish_keeps (p : Part) :
    p.finish.fcu = p.fcu ∧ p.finish.scr = p.scr ∧ p.finish.ltr = p.ltr ∧ p.finish.sq = p.sq ∧ p.finish.msh
    = p.msh ∧ p.finish.dbm = p.dbm ∧ p.finish.sin = p.sin ∧ p.finish.hre = p.hre ∧ p.finish.rtu = p.rtu ∧
    p.finish.tst = p.tst ∧ p.finish.plp.hunt = p.plp.hunt ∧ p.finish.plp.rx = p.plp.rx ∧ p.finish.plp.op =
    p.plp.op ∧ p.finish.plp.restarting = p.plp.restarting ∧ p.finish.nco = p.nco ∧ p.finish.clock =
    p.clock ∧ p.finish.serial = p.serial ∧ p.finish.free = p.free := by
  unfold Part.finish
  (try dsimp only)
  (repeat' split) <;> simp

end Sys2Proof.Machine
end

