-- ==== Sys2Proof/Laws/CommandsKeep.lean ====
section
/-! SUPPORT. What the effects of the sense and timer commands leave of the part. -/

namespace Sys2Proof.Machine

@[simp] theorem Part.coilFrame_keeps (h : SenseHead) (number : Byte) (left right : List (BitVec 12)) (p :
Part) :
    (p.coilFrame h number left right).fcu = p.fcu ∧ (p.coilFrame h number left right).scr.readings =
    p.scr.readings ∧ (p.coilFrame h number left right).ltr = p.ltr ∧ (p.coilFrame h number left right).sq
    = p.sq ∧ (p.coilFrame h number left right).msh = p.msh ∧ (p.coilFrame h number left right).dbm = p.dbm
    ∧ (p.coilFrame h number left right).sin.bumper = p.sin.bumper ∧ (p.coilFrame h number left
    right).sin.attitude = p.sin.attitude ∧ (p.coilFrame h number left right).sin.range = p.sin.range ∧
    (p.coilFrame h number left right).sin.environment = p.sin.environment ∧ (p.coilFrame h number left
    right).sin.limits = p.sin.limits ∧ (p.coilFrame h number left right).hre = p.hre ∧ (p.coilFrame h
    number left right).rtu = p.rtu ∧ (p.coilFrame h number left right).tst.poisoned = p.tst.poisoned ∧
    (p.coilFrame h number left right).tst.mode = p.tst.mode ∧ (p.coilFrame h number left
    right).tst.pattern = p.tst.pattern ∧ (p.coilFrame h number left right).tst.capture = p.tst.capture ∧
    (p.coilFrame h number left right).tst.log = p.tst.log ∧ (p.coilFrame h number left
    right).tst.scrubPointer = p.tst.scrubPointer ∧ (p.coilFrame h number left right).tst.scrubTimer =
    p.tst.scrubTimer ∧ (p.coilFrame h number left right).tst.scrubPeriod = p.tst.scrubPeriod ∧
    (p.coilFrame h number left right).tst.current = p.tst.current ∧ (p.coilFrame h number left right).plp
    = p.plp ∧ (p.coilFrame h number left right).nco = p.nco ∧ (p.coilFrame h number left
    right).agenda.blade = p.agenda.blade ∧ (p.coilFrame h number left right).agenda.deferral =
    p.agenda.deferral ∧ (p.coilFrame h number left right).agenda.removed = p.agenda.removed ∧ (p.coilFrame
    h number left right).agenda.starved = p.agenda.starved ∧ (p.coilFrame h number left
    right).agenda.returning = p.agenda.returning ∧ (p.coilFrame h number left right).agenda.period =
    p.agenda.period ∧ (p.coilFrame h number left right).agenda.walk = p.agenda.walk ∧ (p.coilFrame h
    number left right).agenda.bus = p.agenda.bus ∧ (p.coilFrame h number left right).agenda.port =
    p.agenda.port ∧ (p.coilFrame h number left right).agenda.held = p.agenda.held ∧ (p.coilFrame h number
    left right).agenda.frames = p.agenda.frames ∧ (p.coilFrame h number left right).clock = p.clock ∧
    (p.coilFrame h number left right).serial = p.serial ∧ (p.coilFrame h number left right).free = p.free
    := by
  unfold Part.coilFrame
  (try dsimp only)
  (repeat' split) <;> simp

@[simp] theorem Part.edge_keeps (source : Source) (subject : Nat) (now before : Bool) (p : Part) :
    (p.edge source subject now before).fcu = p.fcu ∧ (p.edge source subject now before).scr = p.scr ∧
    (p.edge source subject now before).ltr = p.ltr ∧ (p.edge source subject now before).sq = p.sq ∧
    (p.edge source subject now before).msh = p.msh ∧ (p.edge source subject now before).dbm = p.dbm ∧
    (p.edge source subject now before).sin = p.sin ∧ (p.edge source subject now before).hre.walk =
    p.hre.walk ∧ (p.edge source subject now before).hre.active = p.hre.active ∧ (p.edge source subject now
    before).hre.pending = p.hre.pending ∧ (p.edge source subject now before).rtu = p.rtu ∧ (p.edge source
    subject now before).tst = p.tst ∧ (p.edge source subject now before).plp = p.plp ∧ (p.edge source
    subject now before).nco = p.nco ∧ (p.edge source subject now before).agenda.blade = p.agenda.blade ∧
    (p.edge source subject now before).agenda.deferral = p.agenda.deferral ∧ (p.edge source subject now
    before).agenda.removed = p.agenda.removed ∧ (p.edge source subject now before).agenda.starved =
    p.agenda.starved ∧ (p.edge source subject now before).agenda.returning = p.agenda.returning ∧ (p.edge
    source subject now before).agenda.period = p.agenda.period ∧ (p.edge source subject now
    before).agenda.bus = p.agenda.bus ∧ (p.edge source subject now before).agenda.store = p.agenda.store ∧
    (p.edge source subject now before).agenda.port = p.agenda.port ∧ (p.edge source subject now
    before).agenda.held = p.agenda.held ∧ (p.edge source subject now before).agenda.frames =
    p.agenda.frames ∧ (p.edge source subject now before).clock = p.clock ∧ (p.edge source subject now
    before).serial = p.serial ∧ (p.edge source subject now before).free = p.free := by
  unfold Part.edge
  (try dsimp only)
  (repeat' split) <;> simp

@[simp] theorem Part.bumperFrame_keeps (h : SenseHead) (left centre right : SenseBit) (p : Part) :
    (p.bumperFrame h left centre right).fcu = p.fcu ∧ (p.bumperFrame h left centre right).scr = p.scr ∧
    (p.bumperFrame h left centre right).ltr = p.ltr ∧ (p.bumperFrame h left centre right).sq = p.sq ∧
    (p.bumperFrame h left centre right).msh = p.msh ∧ (p.bumperFrame h left centre right).dbm = p.dbm ∧
    (p.bumperFrame h left centre right).sin.attitude = p.sin.attitude ∧ (p.bumperFrame h left centre
    right).sin.range = p.sin.range ∧ (p.bumperFrame h left centre right).sin.environment =
    p.sin.environment ∧ (p.bumperFrame h left centre right).sin.limits = p.sin.limits ∧ (p.bumperFrame h
    left centre right).hre.walk = p.hre.walk ∧ (p.bumperFrame h left centre right).hre.active =
    p.hre.active ∧ (p.bumperFrame h left centre right).hre.pending = p.hre.pending ∧ (p.bumperFrame h left
    centre right).rtu = p.rtu ∧ (p.bumperFrame h left centre right).tst = p.tst ∧ (p.bumperFrame h left
    centre right).plp = p.plp ∧ (p.bumperFrame h left centre right).nco = p.nco ∧ (p.bumperFrame h left
    centre right).agenda.blade = p.agenda.blade ∧ (p.bumperFrame h left centre right).agenda.deferral =
    p.agenda.deferral ∧ (p.bumperFrame h left centre right).agenda.removed = p.agenda.removed ∧
    (p.bumperFrame h left centre right).agenda.starved = p.agenda.starved ∧ (p.bumperFrame h left centre
    right).agenda.returning = p.agenda.returning ∧ (p.bumperFrame h left centre right).agenda.period =
    p.agenda.period ∧ (p.bumperFrame h left centre right).agenda.bus = p.agenda.bus ∧ (p.bumperFrame h
    left centre right).agenda.store = p.agenda.store ∧ (p.bumperFrame h left centre right).agenda.port =
    p.agenda.port ∧ (p.bumperFrame h left centre right).agenda.held = p.agenda.held ∧ (p.bumperFrame h
    left centre right).agenda.frames = p.agenda.frames ∧ (p.bumperFrame h left centre right).clock =
    p.clock ∧ (p.bumperFrame h left centre right).serial = p.serial ∧ (p.bumperFrame h left centre
    right).free = p.free := by
  unfold Part.bumperFrame
  (try dsimp only)
  (repeat' split) <;> simp

@[simp] theorem Part.attitudeFrame_keeps (h : SenseHead) (pitch roll : Int) (lift : SenseBit) (p : Part) :
    (p.attitudeFrame h pitch roll lift).fcu = p.fcu ∧ (p.attitudeFrame h pitch roll lift).scr = p.scr ∧
    (p.attitudeFrame h pitch roll lift).ltr = p.ltr ∧ (p.attitudeFrame h pitch roll lift).sq = p.sq ∧
    (p.attitudeFrame h pitch roll lift).msh = p.msh ∧ (p.attitudeFrame h pitch roll lift).dbm = p.dbm ∧
    (p.attitudeFrame h pitch roll lift).sin.bumper = p.sin.bumper ∧ (p.attitudeFrame h pitch roll
    lift).sin.range = p.sin.range ∧ (p.attitudeFrame h pitch roll lift).sin.environment =
    p.sin.environment ∧ (p.attitudeFrame h pitch roll lift).sin.limits = p.sin.limits ∧ (p.attitudeFrame h
    pitch roll lift).hre.walk = p.hre.walk ∧ (p.attitudeFrame h pitch roll lift).hre.active = p.hre.active
    ∧ (p.attitudeFrame h pitch roll lift).hre.pending = p.hre.pending ∧ (p.attitudeFrame h pitch roll
    lift).rtu = p.rtu ∧ (p.attitudeFrame h pitch roll lift).tst = p.tst ∧ (p.attitudeFrame h pitch roll
    lift).plp = p.plp ∧ (p.attitudeFrame h pitch roll lift).nco = p.nco ∧ (p.attitudeFrame h pitch roll
    lift).agenda.blade = p.agenda.blade ∧ (p.attitudeFrame h pitch roll lift).agenda.deferral =
    p.agenda.deferral ∧ (p.attitudeFrame h pitch roll lift).agenda.removed = p.agenda.removed ∧
    (p.attitudeFrame h pitch roll lift).agenda.starved = p.agenda.starved ∧ (p.attitudeFrame h pitch roll
    lift).agenda.returning = p.agenda.returning ∧ (p.attitudeFrame h pitch roll lift).agenda.period =
    p.agenda.period ∧ (p.attitudeFrame h pitch roll lift).agenda.bus = p.agenda.bus ∧ (p.attitudeFrame h
    pitch roll lift).agenda.store = p.agenda.store ∧ (p.attitudeFrame h pitch roll lift).agenda.port =
    p.agenda.port ∧ (p.attitudeFrame h pitch roll lift).agenda.held = p.agenda.held ∧ (p.attitudeFrame h
    pitch roll lift).agenda.frames = p.agenda.frames ∧ (p.attitudeFrame h pitch roll lift).clock = p.clock
    ∧ (p.attitudeFrame h pitch roll lift).serial = p.serial ∧ (p.attitudeFrame h pitch roll lift).free =
    p.free := by
  unfold Part.attitudeFrame
  (try dsimp only)
  (repeat' split) <;> simp

@[simp] theorem Part.rangeFrame_keeps (h : SenseHead) (left right : Nat) (p : Part) :
    (p.rangeFrame h left right).fcu = p.fcu ∧ (p.rangeFrame h left right).scr = p.scr ∧ (p.rangeFrame h
    left right).ltr = p.ltr ∧ (p.rangeFrame h left right).sq = p.sq ∧ (p.rangeFrame h left right).msh =
    p.msh ∧ (p.rangeFrame h left right).dbm = p.dbm ∧ (p.rangeFrame h left right).sin.bumper =
    p.sin.bumper ∧ (p.rangeFrame h left right).sin.attitude = p.sin.attitude ∧ (p.rangeFrame h left
    right).sin.environment = p.sin.environment ∧ (p.rangeFrame h left right).sin.limits = p.sin.limits ∧
    (p.rangeFrame h left right).hre.walk = p.hre.walk ∧ (p.rangeFrame h left right).hre.active =
    p.hre.active ∧ (p.rangeFrame h left right).hre.pending = p.hre.pending ∧ (p.rangeFrame h left
    right).rtu = p.rtu ∧ (p.rangeFrame h left right).tst = p.tst ∧ (p.rangeFrame h left right).plp = p.plp
    ∧ (p.rangeFrame h left right).nco = p.nco ∧ (p.rangeFrame h left right).agenda.blade = p.agenda.blade
    ∧ (p.rangeFrame h left right).agenda.deferral = p.agenda.deferral ∧ (p.rangeFrame h left
    right).agenda.removed = p.agenda.removed ∧ (p.rangeFrame h left right).agenda.starved =
    p.agenda.starved ∧ (p.rangeFrame h left right).agenda.returning = p.agenda.returning ∧ (p.rangeFrame h
    left right).agenda.period = p.agenda.period ∧ (p.rangeFrame h left right).agenda.bus = p.agenda.bus ∧
    (p.rangeFrame h left right).agenda.store = p.agenda.store ∧ (p.rangeFrame h left right).agenda.port =
    p.agenda.port ∧ (p.rangeFrame h left right).agenda.held = p.agenda.held ∧ (p.rangeFrame h left
    right).agenda.frames = p.agenda.frames ∧ (p.rangeFrame h left right).clock = p.clock ∧ (p.rangeFrame h
    left right).serial = p.serial ∧ (p.rangeFrame h left right).free = p.free := by
  unfold Part.rangeFrame
  (try dsimp only)
  (repeat' split) <;> simp

@[simp] theorem Part.environmentFrame_keeps (h : SenseHead) (rain battery contact : Nat) (p : Part) :
    (p.environmentFrame h rain battery contact).fcu.armRefused = p.fcu.armRefused ∧ (p.environmentFrame h
    rain battery contact).fcu.keepSilent = p.fcu.keepSilent ∧ (p.environmentFrame h rain battery
    contact).fcu.keepTimer = p.fcu.keepTimer ∧ (p.environmentFrame h rain battery contact).fcu.keepLimit =
    p.fcu.keepLimit ∧ (p.environmentFrame h rain battery contact).fcu.silentAction = p.fcu.silentAction ∧
    (p.environmentFrame h rain battery contact).fcu.zoneBladeMax = p.fcu.zoneBladeMax ∧
    (p.environmentFrame h rain battery contact).fcu.levelToSend = p.fcu.levelToSend ∧ (p.environmentFrame
    h rain battery contact).scr = p.scr ∧ (p.environmentFrame h rain battery contact).ltr = p.ltr ∧
    (p.environmentFrame h rain battery contact).sq.refillArmed = p.sq.refillArmed ∧ (p.environmentFrame h
    rain battery contact).sq.starvedArmed = p.sq.starvedArmed ∧ (p.environmentFrame h rain battery
    contact).sq.refillMark = p.sq.refillMark ∧ (p.environmentFrame h rain battery contact).msh.source =
    p.msh.source ∧ (p.environmentFrame h rain battery contact).msh.credited = p.msh.credited ∧
    (p.environmentFrame h rain battery contact).msh.wheels = p.msh.wheels ∧ (p.environmentFrame h rain
    battery contact).msh.odometer = p.msh.odometer ∧ (p.environmentFrame h rain battery
    contact).msh.odometerCarry = p.msh.odometerCarry ∧ (p.environmentFrame h rain battery
    contact).msh.progress = p.msh.progress ∧ (p.environmentFrame h rain battery contact).msh.progressCarry
    = p.msh.progressCarry ∧ (p.environmentFrame h rain battery contact).msh.periodTimer =
    p.msh.periodTimer ∧ (p.environmentFrame h rain battery contact).msh.kilotick = p.msh.kilotick ∧
    (p.environmentFrame h rain battery contact).msh.maneuverSpeed = p.msh.maneuverSpeed ∧
    (p.environmentFrame h rain battery contact).dbm.bus = p.dbm.bus ∧ (p.environmentFrame h rain battery
    contact).dbm.number = p.dbm.number ∧ (p.environmentFrame h rain battery contact).dbm.resetStops =
    p.dbm.resetStops ∧ (p.environmentFrame h rain battery contact).dbm.responseLimit = p.dbm.responseLimit
    ∧ (p.environmentFrame h rain battery contact).dbm.holdLimit = p.dbm.holdLimit ∧ (p.environmentFrame h
    rain battery contact).sin.bumper = p.sin.bumper ∧ (p.environmentFrame h rain battery
    contact).sin.attitude = p.sin.attitude ∧ (p.environmentFrame h rain battery contact).sin.range =
    p.sin.range ∧ (p.environmentFrame h rain battery contact).sin.limits = p.sin.limits ∧
    (p.environmentFrame h rain battery contact).hre.walk = p.hre.walk ∧ (p.environmentFrame h rain battery
    contact).rtu.applying = p.rtu.applying ∧ (p.environmentFrame h rain battery contact).rtu.params =
    p.rtu.params ∧ (p.environmentFrame h rain battery contact).rtu.copies = p.rtu.copies ∧
    (p.environmentFrame h rain battery contact).tst.poisoned = p.tst.poisoned ∧ (p.environmentFrame h rain
    battery contact).tst.mode = p.tst.mode ∧ (p.environmentFrame h rain battery contact).tst.pattern =
    p.tst.pattern ∧ (p.environmentFrame h rain battery contact).tst.capture = p.tst.capture ∧
    (p.environmentFrame h rain battery contact).tst.log = p.tst.log ∧ (p.environmentFrame h rain battery
    contact).tst.scrubPointer = p.tst.scrubPointer ∧ (p.environmentFrame h rain battery
    contact).tst.scrubTimer = p.tst.scrubTimer ∧ (p.environmentFrame h rain battery
    contact).tst.scrubPeriod = p.tst.scrubPeriod ∧ (p.environmentFrame h rain battery contact).plp.hunt =
    p.plp.hunt ∧ (p.environmentFrame h rain battery contact).plp.rx = p.plp.rx ∧ (p.environmentFrame h
    rain battery contact).plp.op = p.plp.op ∧ (p.environmentFrame h rain battery contact).plp.restarting =
    p.plp.restarting ∧ (p.environmentFrame h rain battery contact).nco.urgentLevel = p.nco.urgentLevel ∧
    (p.environmentFrame h rain battery contact).agenda.period = p.agenda.period ∧ (p.environmentFrame h
    rain battery contact).agenda.store = p.agenda.store ∧ (p.environmentFrame h rain battery
    contact).agenda.port = p.agenda.port ∧ (p.environmentFrame h rain battery contact).agenda.held =
    p.agenda.held ∧ (p.environmentFrame h rain battery contact).agenda.frames = p.agenda.frames ∧
    (p.environmentFrame h rain battery contact).clock = p.clock ∧ (p.environmentFrame h rain battery
    contact).free = p.free := by
  unfold Part.environmentFrame
  (try dsimp only)
  (repeat' split) <;> simp

@[simp] theorem Part.sensorStale_keeps (n : Fin 5) (p : Part) :
    (p.sensorStale n).fcu = p.fcu ∧ (p.sensorStale n).scr = p.scr ∧ (p.sensorStale n).ltr.zone =
    p.ltr.zone ∧ (p.sensorStale n).ltr.lastZone = p.ltr.lastZone ∧ (p.sensorStale n).ltr.spacing =
    p.ltr.spacing ∧ (p.sensorStale n).sq = p.sq ∧ (p.sensorStale n).msh = p.msh ∧ (p.sensorStale n).dbm =
    p.dbm ∧ (p.sensorStale n).sin.bumper = p.sin.bumper ∧ (p.sensorStale n).sin.attitude = p.sin.attitude
    ∧ (p.sensorStale n).sin.range = p.sin.range ∧ (p.sensorStale n).sin.environment = p.sin.environment ∧
    (p.sensorStale n).sin.limits = p.sin.limits ∧ (p.sensorStale n).hre.walk = p.hre.walk ∧ (p.sensorStale
    n).hre.active = p.hre.active ∧ (p.sensorStale n).hre.pending = p.hre.pending ∧ (p.sensorStale
    n).rtu.stack = p.rtu.stack ∧ (p.sensorStale n).rtu.overflow = p.rtu.overflow ∧ (p.sensorStale
    n).rtu.crossings = p.rtu.crossings ∧ (p.sensorStale n).rtu.applying = p.rtu.applying ∧ (p.sensorStale
    n).rtu.planDue = p.rtu.planDue ∧ (p.sensorStale n).rtu.planning = p.rtu.planning ∧ (p.sensorStale
    n).rtu.leg = p.rtu.leg ∧ (p.sensorStale n).rtu.params = p.rtu.params ∧ (p.sensorStale n).rtu.copies =
    p.rtu.copies ∧ (p.sensorStale n).tst.poisoned = p.tst.poisoned ∧ (p.sensorStale n).tst.mode =
    p.tst.mode ∧ (p.sensorStale n).tst.pattern = p.tst.pattern ∧ (p.sensorStale n).tst.capture =
    p.tst.capture ∧ (p.sensorStale n).tst.log = p.tst.log ∧ (p.sensorStale n).tst.scrubPointer =
    p.tst.scrubPointer ∧ (p.sensorStale n).tst.scrubTimer = p.tst.scrubTimer ∧ (p.sensorStale
    n).tst.scrubPeriod = p.tst.scrubPeriod ∧ (p.sensorStale n).tst.current = p.tst.current ∧
    (p.sensorStale n).plp.hunt = p.plp.hunt ∧ (p.sensorStale n).plp.rx = p.plp.rx ∧ (p.sensorStale
    n).plp.op = p.plp.op ∧ (p.sensorStale n).plp.restarting = p.plp.restarting ∧ (p.sensorStale
    n).nco.urgentLevel = p.nco.urgentLevel ∧ (p.sensorStale n).agenda.removed = p.agenda.removed ∧
    (p.sensorStale n).agenda.starved = p.agenda.starved ∧ (p.sensorStale n).agenda.returning =
    p.agenda.returning ∧ (p.sensorStale n).agenda.period = p.agenda.period ∧ (p.sensorStale n).agenda.bus
    = p.agenda.bus ∧ (p.sensorStale n).agenda.port = p.agenda.port ∧ (p.sensorStale n).agenda.held =
    p.agenda.held ∧ (p.sensorStale n).agenda.frames = p.agenda.frames ∧ (p.sensorStale n).clock = p.clock
    := by
  unfold Part.sensorStale
  (try dsimp only)
  (repeat' split) <;> simp

@[simp] theorem Part.silence_keeps (p : Part) :
    p.silence.fcu.armRefused = p.fcu.armRefused ∧ p.silence.fcu.keepSilent = p.fcu.keepSilent ∧
    p.silence.fcu.keepTimer = p.fcu.keepTimer ∧ p.silence.fcu.keepLimit = p.fcu.keepLimit ∧
    p.silence.fcu.silentAction = p.fcu.silentAction ∧ p.silence.fcu.zoneBladeMax = p.fcu.zoneBladeMax ∧
    p.silence.fcu.levelToSend = p.fcu.levelToSend ∧ p.silence.scr = p.scr ∧ p.silence.ltr = p.ltr ∧
    p.silence.sq.refillArmed = p.sq.refillArmed ∧ p.silence.sq.starvedArmed = p.sq.starvedArmed ∧
    p.silence.sq.refillMark = p.sq.refillMark ∧ p.silence.msh.source = p.msh.source ∧
    p.silence.msh.credited = p.msh.credited ∧ p.silence.msh.wheels = p.msh.wheels ∧ p.silence.msh.odometer
    = p.msh.odometer ∧ p.silence.msh.odometerCarry = p.msh.odometerCarry ∧ p.silence.msh.progress =
    p.msh.progress ∧ p.silence.msh.progressCarry = p.msh.progressCarry ∧ p.silence.msh.periodTimer =
    p.msh.periodTimer ∧ p.silence.msh.kilotick = p.msh.kilotick ∧ p.silence.msh.maneuverSpeed =
    p.msh.maneuverSpeed ∧ p.silence.dbm.bus = p.dbm.bus ∧
    p.silence.dbm.number = p.dbm.number ∧ p.silence.dbm.resetStops = p.dbm.resetStops ∧
    p.silence.dbm.responseLimit = p.dbm.responseLimit ∧ p.silence.dbm.holdLimit = p.dbm.holdLimit ∧
    p.silence.sin = p.sin ∧ p.silence.hre.queue = p.hre.queue ∧ p.silence.hre.walk = p.hre.walk ∧
    p.silence.rtu.applying = p.rtu.applying ∧ p.silence.rtu.params = p.rtu.params ∧ p.silence.rtu.distance
    = p.rtu.distance ∧ p.silence.rtu.dockKey = p.rtu.dockKey ∧ p.silence.rtu.copies = p.rtu.copies ∧
    p.silence.tst.poisoned = p.tst.poisoned ∧ p.silence.tst.mode = p.tst.mode ∧ p.silence.tst.pattern =
    p.tst.pattern ∧ p.silence.tst.capture = p.tst.capture ∧ p.silence.tst.log = p.tst.log ∧
    p.silence.tst.scrubPointer = p.tst.scrubPointer ∧ p.silence.tst.scrubTimer = p.tst.scrubTimer ∧
    p.silence.tst.scrubPeriod = p.tst.scrubPeriod ∧ p.silence.plp.hunt = p.plp.hunt ∧ p.silence.plp.rx =
    p.plp.rx ∧ p.silence.plp.op = p.plp.op ∧ p.silence.plp.restarting = p.plp.restarting ∧
    p.silence.nco.urgentLevel = p.nco.urgentLevel ∧ p.silence.agenda.period = p.agenda.period ∧
    p.silence.agenda.walk = p.agenda.walk ∧ p.silence.agenda.store = p.agenda.store ∧
    p.silence.agenda.port = p.agenda.port ∧ p.silence.agenda.held = p.agenda.held ∧
    p.silence.agenda.frames = p.agenda.frames ∧ p.silence.clock = p.clock ∧ p.silence.free = p.free := by
  unfold Part.silence
  (try dsimp only)
  (repeat' split) <;> simp

@[simp] theorem Part.keepExpired_keeps (p : Part) :
    p.keepExpired.fcu.armRefused = p.fcu.armRefused ∧ p.keepExpired.fcu.keepLimit = p.fcu.keepLimit ∧
    p.keepExpired.fcu.silentAction = p.fcu.silentAction ∧ p.keepExpired.fcu.zoneBladeMax =
    p.fcu.zoneBladeMax ∧ p.keepExpired.fcu.levelToSend = p.fcu.levelToSend ∧ p.keepExpired.scr = p.scr ∧
    p.keepExpired.ltr = p.ltr ∧ p.keepExpired.sq.refillArmed = p.sq.refillArmed ∧
    p.keepExpired.sq.starvedArmed = p.sq.starvedArmed ∧ p.keepExpired.sq.refillMark = p.sq.refillMark ∧
    p.keepExpired.msh.source = p.msh.source ∧ p.keepExpired.msh.credited = p.msh.credited ∧
    p.keepExpired.msh.wheels = p.msh.wheels ∧ p.keepExpired.msh.odometer = p.msh.odometer ∧
    p.keepExpired.msh.odometerCarry = p.msh.odometerCarry ∧ p.keepExpired.msh.progress = p.msh.progress ∧
    p.keepExpired.msh.progressCarry = p.msh.progressCarry ∧ p.keepExpired.msh.periodTimer =
    p.msh.periodTimer ∧ p.keepExpired.msh.kilotick = p.msh.kilotick ∧ p.keepExpired.msh.maneuverSpeed =
    p.msh.maneuverSpeed ∧ p.keepExpired.dbm.bus = p.dbm.bus ∧
    p.keepExpired.dbm.number = p.dbm.number ∧ p.keepExpired.dbm.resetStops = p.dbm.resetStops ∧
    p.keepExpired.dbm.responseLimit = p.dbm.responseLimit ∧ p.keepExpired.dbm.holdLimit = p.dbm.holdLimit
    ∧ p.keepExpired.sin = p.sin ∧ p.keepExpired.hre.queue = p.hre.queue ∧ p.keepExpired.hre.walk =
    p.hre.walk ∧ p.keepExpired.rtu.applying = p.rtu.applying ∧ p.keepExpired.rtu.params = p.rtu.params ∧
    p.keepExpired.rtu.distance = p.rtu.distance ∧ p.keepExpired.rtu.dockKey = p.rtu.dockKey ∧
    p.keepExpired.rtu.copies = p.rtu.copies ∧ p.keepExpired.tst.poisoned = p.tst.poisoned ∧
    p.keepExpired.tst.mode = p.tst.mode ∧ p.keepExpired.tst.pattern = p.tst.pattern ∧
    p.keepExpired.tst.capture = p.tst.capture ∧ p.keepExpired.tst.log = p.tst.log ∧
    p.keepExpired.tst.scrubPointer = p.tst.scrubPointer ∧ p.keepExpired.tst.scrubTimer = p.tst.scrubTimer
    ∧ p.keepExpired.tst.scrubPeriod = p.tst.scrubPeriod ∧ p.keepExpired.plp.hunt = p.plp.hunt ∧
    p.keepExpired.plp.rx = p.plp.rx ∧ p.keepExpired.plp.op = p.plp.op ∧ p.keepExpired.plp.restarting =
    p.plp.restarting ∧ p.keepExpired.nco.urgentLevel = p.nco.urgentLevel ∧ p.keepExpired.agenda.period =
    p.agenda.period ∧ p.keepExpired.agenda.walk = p.agenda.walk ∧ p.keepExpired.agenda.store =
    p.agenda.store ∧ p.keepExpired.agenda.port = p.agenda.port ∧ p.keepExpired.agenda.held = p.agenda.held
    ∧ p.keepExpired.agenda.frames = p.agenda.frames ∧ p.keepExpired.clock = p.clock ∧ p.keepExpired.free =
    p.free := by
  unfold Part.keepExpired
  (try dsimp only)
  (repeat' split) <;> simp

@[simp] theorem Part.periodExpired_keeps (p : Part) :
    p.periodExpired.fcu.keepSilent = p.fcu.keepSilent ∧ p.periodExpired.fcu.keepTimer = p.fcu.keepTimer ∧
    p.periodExpired.fcu.keepLimit = p.fcu.keepLimit ∧ p.periodExpired.fcu.silentAction =
    p.fcu.silentAction ∧ p.periodExpired.fcu.zoneBladeMax = p.fcu.zoneBladeMax ∧
    p.periodExpired.fcu.levelToSend = p.fcu.levelToSend ∧ p.periodExpired.scr = p.scr ∧
    p.periodExpired.ltr = p.ltr ∧ p.periodExpired.sq.refillArmed = p.sq.refillArmed ∧
    p.periodExpired.sq.starvedArmed = p.sq.starvedArmed ∧ p.periodExpired.sq.refillMark = p.sq.refillMark
    ∧ p.periodExpired.msh.source = p.msh.source ∧ p.periodExpired.msh.kilotick = p.msh.kilotick ∧
    p.periodExpired.msh.maneuverSpeed = p.msh.maneuverSpeed ∧
    p.periodExpired.dbm.bus = p.dbm.bus ∧ p.periodExpired.dbm.number = p.dbm.number ∧
    p.periodExpired.dbm.resetStops = p.dbm.resetStops ∧ p.periodExpired.dbm.responseLimit =
    p.dbm.responseLimit ∧ p.periodExpired.dbm.holdLimit = p.dbm.holdLimit ∧ p.periodExpired.sin = p.sin ∧
    p.periodExpired.hre.queue = p.hre.queue ∧ p.periodExpired.hre.walk = p.hre.walk ∧
    p.periodExpired.rtu.applying = p.rtu.applying ∧ p.periodExpired.rtu.copies = p.rtu.copies ∧
    p.periodExpired.tst.poisoned = p.tst.poisoned ∧ p.periodExpired.tst.mode = p.tst.mode ∧
    p.periodExpired.tst.pattern = p.tst.pattern ∧ p.periodExpired.tst.capture = p.tst.capture ∧
    p.periodExpired.tst.log = p.tst.log ∧ p.periodExpired.tst.scrubPointer = p.tst.scrubPointer ∧
    p.periodExpired.tst.scrubTimer = p.tst.scrubTimer ∧ p.periodExpired.tst.scrubPeriod =
    p.tst.scrubPeriod ∧ p.periodExpired.plp.hunt = p.plp.hunt ∧ p.periodExpired.plp.rx = p.plp.rx ∧
    p.periodExpired.plp.op = p.plp.op ∧ p.periodExpired.plp.restarting = p.plp.restarting ∧
    p.periodExpired.nco.urgentLevel = p.nco.urgentLevel ∧ p.periodExpired.agenda.walk = p.agenda.walk ∧
    p.periodExpired.agenda.store = p.agenda.store ∧ p.periodExpired.agenda.port = p.agenda.port ∧
    p.periodExpired.agenda.held = p.agenda.held ∧ p.periodExpired.agenda.frames = p.agenda.frames ∧
    p.periodExpired.clock = p.clock ∧ p.periodExpired.free = p.free := by
  unfold Part.periodExpired
  (try dsimp only)
  (repeat' split) <;> simp

@[simp] theorem Part.responseHoldExpired_keeps (p : Part) :
    p.responseHoldExpired.fcu.keepSilent = p.fcu.keepSilent ∧ p.responseHoldExpired.fcu.keepTimer =
    p.fcu.keepTimer ∧ p.responseHoldExpired.fcu.keepLimit = p.fcu.keepLimit ∧
    p.responseHoldExpired.fcu.silentAction = p.fcu.silentAction ∧ p.responseHoldExpired.fcu.zoneBladeMax =
    p.fcu.zoneBladeMax ∧ p.responseHoldExpired.fcu.levelToSend = p.fcu.levelToSend ∧
    p.responseHoldExpired.scr = p.scr ∧ p.responseHoldExpired.ltr = p.ltr ∧
    p.responseHoldExpired.sq.refillArmed = p.sq.refillArmed ∧ p.responseHoldExpired.sq.starvedArmed =
    p.sq.starvedArmed ∧ p.responseHoldExpired.sq.refillMark = p.sq.refillMark ∧
    p.responseHoldExpired.msh.source = p.msh.source ∧ p.responseHoldExpired.msh.credited = p.msh.credited
    ∧ p.responseHoldExpired.msh.wheels = p.msh.wheels ∧ p.responseHoldExpired.msh.odometer =
    p.msh.odometer ∧ p.responseHoldExpired.msh.odometerCarry = p.msh.odometerCarry ∧
    p.responseHoldExpired.msh.progressCarry = p.msh.progressCarry ∧ p.responseHoldExpired.msh.periodTimer
    = p.msh.periodTimer ∧ p.responseHoldExpired.msh.kilotick = p.msh.kilotick ∧
    p.responseHoldExpired.msh.maneuverSpeed = p.msh.maneuverSpeed ∧
    p.responseHoldExpired.dbm.bus = p.dbm.bus ∧ p.responseHoldExpired.dbm.number = p.dbm.number ∧
    p.responseHoldExpired.dbm.resetStops = p.dbm.resetStops ∧ p.responseHoldExpired.dbm.responseLimit =
    p.dbm.responseLimit ∧ p.responseHoldExpired.dbm.holdLimit = p.dbm.holdLimit ∧
    p.responseHoldExpired.sin = p.sin ∧ p.responseHoldExpired.hre.queue = p.hre.queue ∧
    p.responseHoldExpired.hre.walk = p.hre.walk ∧ p.responseHoldExpired.rtu.applying = p.rtu.applying ∧
    p.responseHoldExpired.rtu.copies = p.rtu.copies ∧ p.responseHoldExpired.tst.poisoned = p.tst.poisoned
    ∧ p.responseHoldExpired.tst.mode = p.tst.mode ∧ p.responseHoldExpired.tst.pattern = p.tst.pattern ∧
    p.responseHoldExpired.tst.capture = p.tst.capture ∧ p.responseHoldExpired.tst.log = p.tst.log ∧
    p.responseHoldExpired.tst.scrubPointer = p.tst.scrubPointer ∧ p.responseHoldExpired.tst.scrubTimer =
    p.tst.scrubTimer ∧ p.responseHoldExpired.tst.scrubPeriod = p.tst.scrubPeriod ∧
    p.responseHoldExpired.plp.hunt = p.plp.hunt ∧ p.responseHoldExpired.plp.rx = p.plp.rx ∧
    p.responseHoldExpired.plp.op = p.plp.op ∧ p.responseHoldExpired.plp.restarting = p.plp.restarting ∧
    p.responseHoldExpired.nco.urgentLevel = p.nco.urgentLevel ∧ p.responseHoldExpired.agenda.period =
    p.agenda.period ∧ p.responseHoldExpired.agenda.walk = p.agenda.walk ∧
    p.responseHoldExpired.agenda.store = p.agenda.store ∧ p.responseHoldExpired.agenda.port =
    p.agenda.port ∧ p.responseHoldExpired.agenda.held = p.agenda.held ∧
    p.responseHoldExpired.agenda.frames = p.agenda.frames ∧ p.responseHoldExpired.clock = p.clock ∧
    p.responseHoldExpired.free = p.free := by
  unfold Part.responseHoldExpired
  (try dsimp only)
  (repeat' split) <;> simp

@[simp] theorem Part.noticeHoldExpired_keeps (c : NoticeClass) (p : Part) :
    (p.noticeHoldExpired c).fcu = p.fcu ∧ (p.noticeHoldExpired c).scr = p.scr ∧ (p.noticeHoldExpired
    c).ltr = p.ltr ∧ (p.noticeHoldExpired c).sq = p.sq ∧ (p.noticeHoldExpired c).msh = p.msh ∧
    (p.noticeHoldExpired c).dbm = p.dbm ∧ (p.noticeHoldExpired c).sin = p.sin ∧ (p.noticeHoldExpired
    c).hre = p.hre ∧ (p.noticeHoldExpired c).rtu = p.rtu ∧ (p.noticeHoldExpired c).tst = p.tst ∧
    (p.noticeHoldExpired c).plp.hunt = p.plp.hunt ∧ (p.noticeHoldExpired c).plp.rx = p.plp.rx ∧
    (p.noticeHoldExpired c).plp.op = p.plp.op ∧ (p.noticeHoldExpired c).plp.restarting = p.plp.restarting
    ∧ (p.noticeHoldExpired c).nco.urgentLevel = p.nco.urgentLevel ∧ (p.noticeHoldExpired c).agenda =
    p.agenda ∧ (p.noticeHoldExpired c).clock = p.clock ∧ (p.noticeHoldExpired c).serial = p.serial ∧
    (p.noticeHoldExpired c).free = p.free := by
  unfold Part.noticeHoldExpired
  (try dsimp only)
  (repeat' split) <;> simp

@[simp] theorem Part.noticeQuietExpired_keeps (c : NoticeClass) (p : Part) :
    (p.noticeQuietExpired c).fcu = p.fcu ∧ (p.noticeQuietExpired c).scr = p.scr ∧ (p.noticeQuietExpired
    c).ltr = p.ltr ∧ (p.noticeQuietExpired c).sq = p.sq ∧ (p.noticeQuietExpired c).msh = p.msh ∧
    (p.noticeQuietExpired c).dbm = p.dbm ∧ (p.noticeQuietExpired c).sin = p.sin ∧ (p.noticeQuietExpired
    c).hre = p.hre ∧ (p.noticeQuietExpired c).rtu = p.rtu ∧ (p.noticeQuietExpired c).tst = p.tst ∧
    (p.noticeQuietExpired c).plp.hunt = p.plp.hunt ∧ (p.noticeQuietExpired c).plp.rx = p.plp.rx ∧
    (p.noticeQuietExpired c).plp.op = p.plp.op ∧ (p.noticeQuietExpired c).plp.restarting =
    p.plp.restarting ∧ (p.noticeQuietExpired c).nco.urgentLevel = p.nco.urgentLevel ∧
    (p.noticeQuietExpired c).agenda = p.agenda ∧ (p.noticeQuietExpired c).clock = p.clock ∧
    (p.noticeQuietExpired c).serial = p.serial ∧ (p.noticeQuietExpired c).free = p.free := by
  unfold Part.noticeQuietExpired
  (try dsimp only)
  (repeat' split) <;> simp

@[simp] theorem Part.scrubTimerExpired_keeps (p : Part) :
    p.scrubTimerExpired.fcu = p.fcu ∧ p.scrubTimerExpired.scr = p.scr ∧ p.scrubTimerExpired.ltr = p.ltr ∧
    p.scrubTimerExpired.sq = p.sq ∧ p.scrubTimerExpired.msh = p.msh ∧ p.scrubTimerExpired.dbm = p.dbm ∧
    p.scrubTimerExpired.sin = p.sin ∧ p.scrubTimerExpired.hre = p.hre ∧ p.scrubTimerExpired.rtu = p.rtu ∧
    p.scrubTimerExpired.tst.poisoned = p.tst.poisoned ∧ p.scrubTimerExpired.tst.mode = p.tst.mode ∧
    p.scrubTimerExpired.tst.pattern = p.tst.pattern ∧ p.scrubTimerExpired.tst.capture = p.tst.capture ∧
    p.scrubTimerExpired.tst.log = p.tst.log ∧ p.scrubTimerExpired.tst.scrubPointer = p.tst.scrubPointer ∧
    p.scrubTimerExpired.tst.scrubPeriod = p.tst.scrubPeriod ∧ p.scrubTimerExpired.tst.current =
    p.tst.current ∧ p.scrubTimerExpired.plp = p.plp ∧ p.scrubTimerExpired.nco = p.nco ∧
    p.scrubTimerExpired.agenda.blade = p.agenda.blade ∧ p.scrubTimerExpired.agenda.deferral =
    p.agenda.deferral ∧ p.scrubTimerExpired.agenda.removed = p.agenda.removed ∧
    p.scrubTimerExpired.agenda.starved = p.agenda.starved ∧ p.scrubTimerExpired.agenda.returning =
    p.agenda.returning ∧ p.scrubTimerExpired.agenda.period = p.agenda.period ∧
    p.scrubTimerExpired.agenda.walk = p.agenda.walk ∧ p.scrubTimerExpired.agenda.bus = p.agenda.bus ∧
    p.scrubTimerExpired.agenda.port = p.agenda.port ∧ p.scrubTimerExpired.agenda.held = p.agenda.held ∧
    p.scrubTimerExpired.agenda.frames = p.agenda.frames ∧ p.scrubTimerExpired.clock = p.clock ∧
    p.scrubTimerExpired.serial = p.serial ∧ p.scrubTimerExpired.free = p.free := by
  unfold Part.scrubTimerExpired
  (try dsimp only)
  (repeat' split) <;> simp

end Sys2Proof.Machine
end

