-- ==== Sys2Proof/Laws/Event.lean ====
section
/-! SUPPORT. One event: what its end does where nothing is marked, how a request's frame is taken in the event
of its arrival, and what an event never touches. -/

namespace Sys2Proof.Machine

/-! ### The end of an event -/

@[simp] theorem Part.passIf_false (f : Part → Part) (p : Part) : p.passIf false f = p := rfl

@[simp] theorem Part.passIf_true (f : Part → Part) (p : Part) : p.passIf true f = f p := rfl

theorem Part.settleMotion_of_clear (p : Part) (h1 : p.agenda.deferral = false)
    (h2 : p.agenda.returning = false) : p.settleMotion = p := by
  simp [Part.settleMotion, h1, h2]

theorem Part.settleGrants_of_clear (p : Part) (h1 : p.agenda.period = false) (h2 : p.agenda.walk = false)
    (h3 : p.agenda.store = false) : p.settleGrants = p := by
  simp [Part.settleGrants, h1, h2, h3]

/-- With no mark of a closing pass set, the end of an event decides nothing. -/
theorem Part.conclude_of_clear (p : Part) (h1 : p.agenda.removed = false) (h2 : p.agenda.starved = false)
    (h3 : p.agenda.blade = false) (h4 : p.agenda.source = false) (h5 : p.agenda.bus = false) :
    p.conclude = p := by
  simp [Part.conclude, h1, h2, h3, h4, h5]

/-- With no mark but the port's set, settling only renews the deferral test. -/
theorem Part.settle_of_port_only (p : Part) (held port : Bool) (frames : Nat)
    (h : p.agenda = { held := held, frames := frames, port := port }) :
    p.settle = { p with agenda := { held := p.deferralTest, frames := frames, port := port } } := by
  have e1 : p.settleMotion = p := Part.settleMotion_of_clear p (by rw [h]) (by rw [h])
  have e2 : p.settleGrants = p := Part.settleGrants_of_clear p (by rw [h]) (by rw [h]) (by rw [h])
  simp [Part.settle, e1, e2, h]

theorem Part.serveFrom_of_no_port (n : Nat) (p : Part) (h : p.agenda.port = false) : p.serveFrom n = p := by
  cases n <;> simp [Part.serveFrom, h]

theorem Part.serveFrom_of_no_frame (n : Nat) (p : Part) (h : p.plp.nextFrame = none) : p.serveFrom n = p := by
  cases n <;> simp [Part.serveFrom, h]

/-- The port takes a frame. -/
theorem Part.serveFrom_takes (n : Nat) (p : Part) (f : RxFrame) (h : p.agenda.port = true)
    (hf : p.plp.nextFrame = some f) : p.serveFrom (n + 1) = (p.takeNext f).settle.serveFrom n := by
  simp [Part.serveFrom, h, hf]

/-- With no frame waiting the port takes none. -/
theorem Plp.nextFrame_of_none_waits (l : Plp) (h : ∀ f ∈ l.rx, f.status ≠ .waiting) : l.nextFrame = none := by
  unfold Plp.nextFrame
  split
  · rfl
  · simpa using fun f hf => h f hf

@[simp] theorem orderFrames_nil : orderFrames [] = [] := rfl

@[simp] theorem orderFrames_answer (tag : Byte) (code : AnswerCode) (data : List Byte) :
    orderFrames [.answer tag code data] = [.answer tag code data] := rfl

@[simp] theorem orderFrames_started (k : ResetKind) : orderFrames [.started k] = [.started k] := rfl

@[simp] theorem orderFrames_notice (c : NoticeClass) (gap : Bool) (es : List Entry) :
    orderFrames [.notice c gap es] = [.notice c gap es] := by
  cases c <;> rfl

@[simp] theorem orderFrames_notice_answer (c : NoticeClass) (gap : Bool) (es : List Entry) (tag : Byte)
    (code : AnswerCode) (data : List Byte) :
    orderFrames [.notice c gap es, .answer tag code data] =
      [.notice c gap es, .answer tag code data] := by
  cases c <;> rfl

/-- An event changes neither the table memory nor the queue of commands. -/
@[simp] theorem State.event_keeps (f : Part → Part) (s : State) :
    (s.event f).mem = s.mem ∧ (s.event f).pending = s.pending ∧
      (s.event f).part = s.part.runEvent f := ⟨rfl, rfl, rfl⟩

/-- Every event leaves the agenda clear. -/
@[simp] theorem Part.runEvent_agenda (f : Part → Part) (p : Part) : (p.runEvent f).agenda = {} := rfl

/-- An effect that changes nothing is an event that changes nothing. -/
theorem Part.runEvent_of_nothing (f : Part → Part) (p : Part) (h : f p.begin = p.begin)
    (hq : p.agenda = {}) : p.runEvent f = p := by
  have hs := Part.settle_of_port_only p.begin p.deferralTest false p.plp.tx.length rfl
  simp only [Part.runEvent, h, hs, Part.serve]
  rw [Part.serveFrom_of_no_port _ _ rfl, Part.conclude_of_clear _ rfl rfl rfl rfl rfl]
  cases p
  simp_all [Part.finish, Part.begin]

/-! ### A request's frame -/

/-- The part in which the frame of a request, taken in the event of its arrival, meets its owner. -/
def Part.requestTaken (kind tag : Byte) (body : List Byte) (p : Part) : Part :=
  let a := p.begin.requestArrived kind tag body
  { a with
    plp.rx := p.plp.rx ++ [RxFrame.mk kind tag body .inHand]
    agenda := { held := a.deferralTest, frames := p.plp.tx.length } }

theorem markInHand_append (l : List RxFrame) (f : RxFrame) (h : ∀ g ∈ l, g.status = .answered)
    (hf : f.status = .waiting) : markInHand (l ++ [f]) = l ++ [{ f with status := .inHand }] := by
  induction l with
  | nil => simp [markInHand, hf]
  | cons g gs ih =>
    have hg := h g (by simp)
    simp only [List.cons_append, markInHand, hg]
    rw [ih fun x hx => h x (by simp [hx])]
    simp

/-- What the arrival of a frame sets, where the buffer has room. -/
theorem Part.requestArrived_room (kind tag : Byte) (body : List Byte) (p : Part)
    (h : p.plp.rx.length < Config.receivePlaces) :
    (p.begin.requestArrived kind tag body).plp.rx = p.plp.rx ++ [RxFrame.mk kind tag body .waiting] ∧
    (p.begin.requestArrived kind tag body).plp.restarting = p.plp.restarting ∧
    (p.begin.requestArrived kind tag body).agenda =
      { held := p.deferralTest, frames := p.plp.tx.length, port := true } := by
  unfold Part.requestArrived Part.frameArrived
  have hr : Plp.ready { p.begin.plp with hunt := [] } = true := by simpa [Plp.ready] using h
  simp only [hr]
  simp only [Bool.not_true, Bool.false_eq_true, if_false]
  split
  · simp [Part.addEntry, Part.addEntryUrgent, Part.emitCause, Part.emit]
    (repeat' split) <;> simp [Part.begin]
  · simp [Part.begin]

/-- The frame of a request that arrives where the port is ready is taken in the event of its arrival, before
anything else happens (R191 to R193). -/
theorem Part.request_event (kind tag : Byte) (body : List Byte) (s : State) (h : PortReady s) :
    s.part.runEvent (Part.requestArrived kind tag body) =
      ((((s.part.requestTaken kind tag body).takeFrame kind body).settle).serveFrom
        s.part.plp.rx.length).conclude.finish := by
  obtain ⟨h1, h2, h3, -⟩ := h
  obtain ⟨e1, e2, e3⟩ := Part.requestArrived_room kind tag body s.part h1
  have hs := Part.settle_of_port_only _ _ _ _ e3
  unfold Part.runEvent
  rw [hs]
  unfold Part.serve
  have hl : ({ s.part.begin.requestArrived kind tag body with
      agenda := { held := (s.part.begin.requestArrived kind tag body).deferralTest,
                  frames := s.part.plp.tx.length, port := true } } : Part).plp.rx.length =
      s.part.plp.rx.length + 1 := by simp [e1]
  rw [hl]
  rw [Part.serveFrom_takes _ _ (RxFrame.mk kind tag body .waiting) rfl]
  · congr 3
    simp only [Part.takeNext, Part.requestTaken, e1]
    rw [markInHand_append _ _ h2 rfl]
  · have hn : ∀ l : List RxFrame, (∀ g ∈ l, g.status = RxStatus.answered) →
        (l ++ [RxFrame.mk kind tag body .waiting]).find? (fun f => f.status == .waiting) =
          some (RxFrame.mk kind tag body .waiting) := by
      intro l hl
      induction l with
      | nil => rfl
      | cons g gs ih =>
        simp [hl g (by simp), ih fun x hx => hl x (by simp [hx])]
    have hi : ∀ l : List RxFrame, (∀ g ∈ l, g.status = RxStatus.answered) →
        (l ++ [RxFrame.mk kind tag body .waiting]).find? (fun f => f.status == .inHand) = none := by
      intro l hl
      simp only [List.find?_eq_none, List.mem_append, List.mem_singleton]
      rintro x (hx | rfl)
      · simp [hl x hx]
      · simp
    simp only [Plp.nextFrame, Plp.inHand, e1, e2, h3]
    rw [hi _ h2, hn _ h2]
    rfl

/-- The rest of an event in which nothing is marked but the port, and no frame waits. -/
theorem Part.end_of_event (r : Part) (held port : Bool) (frames n : Nat)
    (h : r.agenda = { held := held, frames := frames, port := port }) (hn : r.plp.nextFrame = none) :
    ((r.settle).serveFrom n).conclude.finish =
      { r with
        plp.tx := r.plp.tx.take frames ++ orderFrames (r.plp.tx.drop frames)
        agenda := {} } := by
  rw [Part.settle_of_port_only r held port frames h, Part.serveFrom_of_no_frame,
    Part.conclude_of_clear _ rfl rfl rfl rfl rfl]
  · rfl
  · exact hn

/-- Handing an entry to the Coalescer makes one NOTICE of the entry's class, or no frame. -/
theorem Part.addEntryUrgent_tx (u : Bool) (k : EntryKind) (a v : Nat) (p : Part) :
    (p.addEntryUrgent u k a v).plp.tx = p.plp.tx ∨
      ∃ gap entries,
        (p.addEntryUrgent u k a v).plp.tx = p.plp.tx ++ [.notice k.noticeClass gap entries] := by
  unfold Part.addEntryUrgent
  dsimp only
  split
  · unfold Part.emitCause
    split
    · exact .inl rfl
    · unfold Part.emit
      dsimp only
      split
      · exact .inl rfl
      · exact .inr ⟨_, _, rfl⟩
  · exact .inl rfl

/-- The frames that one event has made before its ANSWER: a NOTICE of class FIELD at most, when the arrival
has made the keep status ACTIVE again. -/
theorem Part.requestTaken_tx (kind tag : Byte) (body : List Byte) (p : Part) :
    (p.requestTaken kind tag body).plp.tx = p.plp.tx ∨
      ∃ gap entries,
        (p.requestTaken kind tag body).plp.tx = p.plp.tx ++ [.notice .field gap entries] := by
  change (p.begin.requestArrived kind tag body).plp.tx = _ ∨
    ∃ gap entries, (p.begin.requestArrived kind tag body).plp.tx = _
  unfold Part.requestArrived Part.frameArrived
  split
  · exact .inl rfl
  · dsimp only
    split
    · exact Part.addEntryUrgent_tx false .keepState 0 0 _
    · exact .inl rfl

/-- What the arrival of a request's frame changes before its owner looks at it: the keep timer and status,
and with them the Coalescer's FIELD class; the link port itself. -/
theorem Part.requestTaken_keeps (kind tag : Byte) (body : List Byte) (p : Part)
    (h : p.plp.rx.length < Config.receivePlaces) :
    (p.requestTaken kind tag body).fcu =
      { p.fcu with keepTimer := some p.fcu.keepLimit, keepSilent := false } ∧
    (p.requestTaken kind tag body).scr = p.scr ∧ (p.requestTaken kind tag body).ltr = p.ltr ∧
    (p.requestTaken kind tag body).sq = p.sq ∧ (p.requestTaken kind tag body).msh = p.msh ∧
    (p.requestTaken kind tag body).dbm = p.dbm ∧ (p.requestTaken kind tag body).sin = p.sin ∧
    (p.requestTaken kind tag body).hre = p.hre ∧ (p.requestTaken kind tag body).rtu = p.rtu ∧
    (p.requestTaken kind tag body).tst = p.tst ∧ (p.requestTaken kind tag body).clock = p.clock ∧
    (p.requestTaken kind tag body).serial = p.serial ∧ (p.requestTaken kind tag body).free = p.free ∧
    (p.requestTaken kind tag body).plp.rx = p.plp.rx ++ [RxFrame.mk kind tag body .inHand] ∧
    (p.requestTaken kind tag body).plp.restarting = p.plp.restarting ∧
    (p.fcu.keepSilent = false → (p.requestTaken kind tag body).nco = p.nco) := by
  have hr : Plp.ready { p.plp with hunt := [] } = true := by simpa [Plp.ready] using h
  have hrest := (Part.requestArrived_room kind tag body p h).2.1
  by_cases hk : p.fcu.keepSilent = true
  · refine ⟨?_, ?_, ?_, ?_, ?_, ?_, ?_, ?_, ?_, ?_, ?_, ?_, ?_, rfl, hrest, ?_⟩ <;>
      simp [Part.requestTaken, Part.requestArrived, Part.frameArrived, Part.begin, hr, hk]
  · have hk' : p.fcu.keepSilent = false := by simpa using hk
    refine ⟨?_, ?_, ?_, ?_, ?_, ?_, ?_, ?_, ?_, ?_, ?_, ?_, ?_, rfl, hrest, ?_⟩ <;>
      simp [Part.requestTaken, Part.requestArrived, Part.frameArrived, Part.begin, hr, hk']

/-- The agenda of a request just taken. -/
@[simp] theorem Part.requestTaken_agenda (kind tag : Byte) (body : List Byte) (p : Part) :
    (p.requestTaken kind tag body).agenda =
      { held := (p.begin.requestArrived kind tag body).deferralTest, frames := p.plp.tx.length } := rfl

/-- The answer to a request just taken (R193). -/
theorem Part.answer_taken (kind tag : Byte) (body data : List Byte) (code : AnswerCode) (q : Part)
    (old : List RxFrame) (h : ∀ f ∈ old, f.status = .answered)
    (hq : q.plp.rx = old ++ [RxFrame.mk kind tag body .inHand]) :
    q.answer code data =
      { q with
        plp.rx := old ++ [RxFrame.mk kind tag body .answered]
        plp.op := none
        plp.tx := q.plp.tx ++ [.answer tag code data]
        agenda.port := true } := by
  have hi : ∀ l : List RxFrame, (∀ g ∈ l, g.status = RxStatus.answered) →
      (l ++ [RxFrame.mk kind tag body .inHand]).find? (fun f => f.status == .inHand) =
        some (RxFrame.mk kind tag body .inHand) := by
    intro l hl
    induction l with
    | nil => rfl
    | cons g gs ih => simp [hl g (by simp), ih fun x hx => hl x (by simp [hx])]
  have hm : ∀ l : List RxFrame, (∀ g ∈ l, g.status = RxStatus.answered) →
      l.map (fun g => if g.status = .inHand then { g with status := .answered } else g) = l := by
    intro l hl
    induction l with
    | nil => rfl
    | cons g gs ih => simp [hl g (by simp), ih fun x hx => hl x (by simp [hx])]
  simp only [Part.answer, Plp.inHand, hq, hi old h]
  congr 2
  simp [hm old h]

/-- The whole event of a request whose owner answers it at once: what the owner has made of the part, with the
frame answered, the ANSWER behind the event's NOTICES, and no operation in hand. -/
theorem Part.answered_event (kind tag : Byte) (body data : List Byte) (code : AnswerCode) (s : State)
    (h : PortReady s) (q : Part)
    (e : (s.part.requestTaken kind tag body).takeFrame kind body = q.answer code data)
    (hp : q.plp = (s.part.requestTaken kind tag body).plp)
    (ha : q.agenda = (s.part.requestTaken kind tag body).agenda) :
    s.part.runEvent (Part.requestArrived kind tag body) =
      { q with
        plp.rx := s.part.plp.rx ++ [RxFrame.mk kind tag body .answered]
        plp.op := none
        plp.tx := (s.part.requestTaken kind tag body).plp.tx ++ [.answer tag code data]
        agenda := {} } := by
  have hk := (Part.requestTaken_keeps kind tag body s.part h.1).2.2.2.2.2.2.2.2.2.2.2.2.2.1
  rw [Part.request_event kind tag body s h, e,
    Part.answer_taken kind tag body data code q s.part.plp.rx h.2.1 (by rw [hp]; exact hk)]
  rw [Part.end_of_event _ (s.part.begin.requestArrived kind tag body).deferralTest true s.part.plp.tx.length]
  · rw [hp]
    rcases Part.requestTaken_tx kind tag body s.part with ht | ⟨gap, es, ht⟩
    · simp [ht]
    · simp [ht]
  · simp [ha]
  · apply Plp.nextFrame_of_none_waits
    intro f hf
    simp only [List.mem_append, List.mem_singleton] at hf
    rcases hf with hf | rfl
    · simp [h.2.1 f hf]
    · simp

/-- The frames of the event of a request that is answered at once. -/
theorem Part.answered_frames (kind tag : Byte) (body data : List Byte) (code : AnswerCode) (s t : State)
    (ht : t.part.plp.tx =
      (s.part.requestTaken kind tag body).plp.tx ++ [.answer tag code data]) :
    Answered s t tag code data := by
  rcases Part.requestTaken_tx kind tag body s.part with hx | ⟨gap, es, hx⟩
  · exact ⟨[], by simp, by rw [ht, hx]; simp⟩
  · refine ⟨[.notice .field gap es], fun f hf => ⟨.field, gap, es, ?_⟩, by rw [ht, hx]⟩
    simpa using hf

/-- Handing an entry to the Coalescer leaves the other classes. -/
theorem Part.addEntryUrgent_other (u : Bool) (k : EntryKind) (a v : Nat) (p : Part) (c : NoticeClass)
    (h : c ≠ k.noticeClass) : (p.addEntryUrgent u k a v).nco.classes.get c = p.nco.classes.get c := by
  unfold Part.addEntryUrgent
  dsimp only
  split
  · unfold Part.emitCause
    split
    · simp [h]
    · unfold Part.emit
      dsimp only
      split <;> simp [h]
  · simp [h]

/-- The arrival of a frame leaves the Coalescer but for the class FIELD. -/
theorem Part.requestTaken_nco (kind tag : Byte) (body : List Byte) (p : Part) :
    (p.requestTaken kind tag body).nco.urgentLevel = p.nco.urgentLevel ∧
    ∀ c, c ≠ .field →
      (p.requestTaken kind tag body).nco.classes.get c = p.nco.classes.get c := by
  change (p.begin.requestArrived kind tag body).nco.urgentLevel = _ ∧
    ∀ c, c ≠ .field → (p.begin.requestArrived kind tag body).nco.classes.get c = _
  unfold Part.requestArrived Part.frameArrived
  split
  · exact ⟨rfl, fun c hc => rfl⟩
  · dsimp only
    split
    · exact ⟨by simp [Part.begin], fun c hc => Part.addEntryUrgent_other false .keepState 0 0 _ c hc⟩
    · exact ⟨rfl, fun c hc => rfl⟩

/-- A request that its owner answers without a further effect. -/
theorem State.request_only_answered (kind tag : Byte) (body data : List Byte) (code : AnswerCode)
    (s : State) (h : PortReady s)
    (e : (s.part.requestTaken kind tag body).takeFrame kind body =
      (s.part.requestTaken kind tag body).answer code data) :
    ∃ t, s.request kind tag body = .next t ∧ OnlyAnswered s t kind tag body code data := by
  refine ⟨_, rfl, ?_⟩
  have hrun := Part.answered_event kind tag body data code s h _ e rfl rfl
  have hk := Part.requestTaken_keeps kind tag body s.part h.1
  have hn := Part.requestTaken_nco kind tag body s.part
  simp only [OnlyAnswered, Received, KeepRestarted, NoticesKept, BlocksKept, StoreKept, State.event, hrun]
  refine ⟨Part.answered_frames kind tag body data code s _ rfl, trivial, hk.1, ⟨?_, hn.1, hn.2⟩, ?_, ?_⟩
  · exact hk.2.2.2.2.2.2.2.2.2.2.2.2.2.2.2
  · obtain ⟨-, h1, h2, h3, h4, h5, h6, h7, h8, -, h9, -⟩ := hk
    exact ⟨trivial, trivial, h9, h1, h2, h3, h4, h5, h6, h7, h8⟩
  · exact ⟨trivial, hk.2.2.2.2.2.2.2.2.2.1⟩

end Sys2Proof.Machine
end

