-- ==== Sys2Proof/Laws/Frames.lean ====
section
/-! SUPPORT. The transmit list only grows in an event: every operation leaves what it held at its front, in
place and order (R196). -/

namespace Sys2Proof.Machine

/-- A prefix of a list is a prefix of the list with more behind it. -/
@[simp] theorem prefix_of_append (l a b : List TxFrame) (h : l <+: a) : l <+: a ++ b :=
  h.trans (List.prefix_append a b)

@[simp] theorem Part.emit_frames (c : NoticeClass) (p : Part) (front : List TxFrame) (hfr : front <+:
p.plp.tx) :
    front <+: (p.emit c).plp.tx := by
  unfold Part.emit
  (try dsimp only)
  (repeat' split) <;> simp (maxDischargeDepth := 40) [hfr]

@[simp] theorem Part.emitCause_frames (c : NoticeClass) (p : Part) (front : List TxFrame) (hfr : front <+:
p.plp.tx) :
    front <+: (p.emitCause c).plp.tx := by
  unfold Part.emitCause
  (try dsimp only)
  (repeat' split) <;> simp (maxDischargeDepth := 40) [hfr]

@[simp] theorem Part.addEntryUrgent_frames (urgent : Bool) (kind : EntryKind) (subject value : Nat) (p :
Part) (front : List TxFrame) (hfr : front <+: p.plp.tx) :
    front <+: (p.addEntryUrgent urgent kind subject value).plp.tx := by
  unfold Part.addEntryUrgent
  (try dsimp only)
  (repeat' split) <;> simp (maxDischargeDepth := 40) [hfr]

@[simp] theorem Part.addEntry_frames (kind : EntryKind) (subject value : Nat) (p : Part) (front : List
TxFrame) (hfr : front <+: p.plp.tx) :
    front <+: (p.addEntry kind subject value).plp.tx := by
  unfold Part.addEntry
  (try dsimp only)
  (repeat' split) <;> simp (maxDischargeDepth := 40) [hfr]

@[simp] theorem Part.addModeChanged_frames (p : Part) (front : List TxFrame) (hfr : front <+: p.plp.tx) :
    front <+: p.addModeChanged.plp.tx := by
  unfold Part.addModeChanged
  (try dsimp only)
  (repeat' split) <;> simp (maxDischargeDepth := 40) [hfr]

@[simp] theorem Part.addHazard_frames (outcome : EntryKind) (r : Response) (p : Part) (front : List
TxFrame) (hfr : front <+: p.plp.tx) :
    front <+: (p.addHazard outcome r).plp.tx := by
  unfold Part.addHazard
  (try dsimp only)
  (repeat' split) <;> simp (maxDischargeDepth := 40) [hfr]

@[simp] theorem Part.addSegDone_frames (g : Segment) (e : Ending) (distance : Nat) (p : Part) (front :
List TxFrame) (hfr : front <+: p.plp.tx) :
    front <+: (p.addSegDone g e distance).plp.tx := by
  unfold Part.addSegDone
  (try dsimp only)
  (repeat' split) <;> simp (maxDischargeDepth := 40) [hfr]

@[simp] theorem Part.endHead_frames (e : Ending) (distance : Nat) (p : Part) (front : List TxFrame) (hfr :
front <+: p.plp.tx) :
    front <+: (p.endHead e distance).plp.tx := by
  unfold Part.endHead
  (try dsimp only)
  (repeat' split) <;> simp (maxDischargeDepth := 40) [hfr]

@[simp] theorem Part.activateFrom_frames (x0 : Nat) (p : Part) (front : List TxFrame) (hfr : front <+:
p.plp.tx) :
    front <+: (p.activateFrom x0).plp.tx := by
  induction x0 generalizing p with
  | zero => simp [Part.activateFrom, hfr]
  | succ n ih => simp only [Part.activateFrom]; (repeat' split) <;> first | exact ih _ (by simp (maxDischargeDepth := 40) [hfr]) | simp (maxDischargeDepth := 40) [hfr]

@[simp] theorem Part.activateHead_frames (p : Part) (front : List TxFrame) (hfr : front <+: p.plp.tx) :
    front <+: p.activateHead.plp.tx := by
  unfold Part.activateHead
  (try dsimp only)
  (repeat' split) <;> simp (maxDischargeDepth := 40) [hfr]

@[simp] theorem Part.completeActive_frames (p : Part) (front : List TxFrame) (hfr : front <+: p.plp.tx) :
    front <+: p.completeActive.plp.tx := by
  unfold Part.completeActive
  (try dsimp only)
  (repeat' split) <;> simp (maxDischargeDepth := 40) [hfr]

@[simp] theorem Part.cutMarked_frames (p : Part) (front : List TxFrame) (hfr : front <+: p.plp.tx) :
    front <+: p.cutMarked.plp.tx := by
  unfold Part.cutMarked
  (try dsimp only)
  (repeat' split) <;> simp (maxDischargeDepth := 40) [hfr]

@[simp] theorem Part.abandonAll_frames (x0 : Nat) (p : Part) (front : List TxFrame) (hfr : front <+:
p.plp.tx) :
    front <+: (p.abandonAll x0).plp.tx := by
  induction x0 generalizing p with
  | zero => simp [Part.abandonAll, hfr]
  | succ n ih => simp only [Part.abandonAll]; (repeat' split) <;> first | exact ih _ (by simp (maxDischargeDepth := 40) [hfr]) | simp (maxDischargeDepth := 40) [hfr]

@[simp] theorem Part.flush_frames (p : Part) (front : List TxFrame) (hfr : front <+: p.plp.tx) :
    front <+: p.flush.plp.tx := by
  unfold Part.flush
  (try dsimp only)
  (repeat' split) <;> simp (maxDischargeDepth := 40) [hfr]

@[simp] theorem Part.place_frames (segments : List Segment) (p : Part) (front : List TxFrame) (hfr : front
<+: p.plp.tx) :
    front <+: (p.place segments).plp.tx := by
  unfold Part.place
  (try dsimp only)
  (repeat' split) <;> simp (maxDischargeDepth := 40) [hfr]

@[simp] theorem Part.refillTest_frames (p : Part) (front : List TxFrame) (hfr : front <+: p.plp.tx) :
    front <+: p.refillTest.plp.tx := by
  unfold Part.refillTest
  (try dsimp only)
  (repeat' split) <;> simp (maxDischargeDepth := 40) [hfr]

@[simp] theorem Part.starvedTest_frames (p : Part) (front : List TxFrame) (hfr : front <+: p.plp.tx) :
    front <+: p.starvedTest.plp.tx := by
  unfold Part.starvedTest
  (try dsimp only)
  (repeat' split) <;> simp (maxDischargeDepth := 40) [hfr]

@[simp] theorem Part.setStanding_frames (n : Fin 3) (st : NodeStanding) (p : Part) (front : List TxFrame)
(hfr : front <+: p.plp.tx) :
    front <+: (p.setStanding n st).plp.tx := by
  unfold Part.setStanding
  (try dsimp only)
  (repeat' split) <;> simp (maxDischargeDepth := 40) [hfr]

@[simp] theorem Part.setMode_frames (m : Mode) (resume : Option Resume) (p : Part) (front : List TxFrame)
(hfr : front <+: p.plp.tx) :
    front <+: (p.setMode m resume).plp.tx := by
  unfold Part.setMode
  (try dsimp only)
  (repeat' split) <;> simp (maxDischargeDepth := 40) [hfr]

@[simp] theorem Part.endActive_frames (p : Part) (front : List TxFrame) (hfr : front <+: p.plp.tx) :
    front <+: p.endActive.plp.tx := by
  unfold Part.endActive
  (try dsimp only)
  (repeat' split) <;> simp (maxDischargeDepth := 40) [hfr]

@[simp] theorem Part.dropPending_frames (p : Part) (front : List TxFrame) (hfr : front <+: p.plp.tx) :
    front <+: p.dropPending.plp.tx := by
  unfold Part.dropPending
  (try dsimp only)
  (repeat' split) <;> simp (maxDischargeDepth := 40) [hfr]

@[simp] theorem Part.clearResponses_frames (p : Part) (front : List TxFrame) (hfr : front <+: p.plp.tx) :
    front <+: p.clearResponses.plp.tx := by
  unfold Part.clearResponses
  (try dsimp only)
  (repeat' split) <;> simp (maxDischargeDepth := 40) [hfr]

@[simp] theorem Part.enterStop_frames (m : Mode) (cause : Option StopCause) (flush : Bool) (p : Part)
(front : List TxFrame) (hfr : front <+: p.plp.tx) :
    front <+: (p.enterStop m cause flush).plp.tx := by
  unfold Part.enterStop
  (try dsimp only)
  (repeat' split) <;> simp (maxDischargeDepth := 40) [hfr]

@[simp] theorem Part.enterSafe_frames (cause : StopCause) (p : Part) (front : List TxFrame) (hfr : front
<+: p.plp.tx) :
    front <+: (p.enterSafe cause).plp.tx := by
  unfold Part.enterSafe
  (try dsimp only)
  (repeat' split) <;> simp (maxDischargeDepth := 40) [hfr]

@[simp] theorem Part.homingFailed_frames (p : Part) (front : List TxFrame) (hfr : front <+: p.plp.tx) :
    front <+: p.homingFailed.plp.tx := by
  unfold Part.homingFailed
  (try dsimp only)
  (repeat' split) <;> simp (maxDischargeDepth := 40) [hfr]

@[simp] theorem Part.dockFailed_frames (p : Part) (front : List TxFrame) (hfr : front <+: p.plp.tx) :
    front <+: p.dockFailed.plp.tx := by
  unfold Part.dockFailed
  (try dsimp only)
  (repeat' split) <;> simp (maxDischargeDepth := 40) [hfr]

@[simp] theorem Part.contactConfirmed_frames (p : Part) (front : List TxFrame) (hfr : front <+: p.plp.tx)
:
    front <+: p.contactConfirmed.plp.tx := by
  unfold Part.contactConfirmed
  (try dsimp only)
  (repeat' split) <;> simp (maxDischargeDepth := 40) [hfr]

@[simp] theorem Part.contactLost_frames (voltage : Nat) (p : Part) (front : List TxFrame) (hfr : front <+:
p.plp.tx) :
    front <+: (p.contactLost voltage).plp.tx := by
  unfold Part.contactLost
  (try dsimp only)
  (repeat' split) <;> simp (maxDischargeDepth := 40) [hfr]

@[simp] theorem Part.attemptFailed_frames (cause : Nat) (p : Part) (front : List TxFrame) (hfr : front <+:
p.plp.tx) :
    front <+: (p.attemptFailed cause).plp.tx := by
  unfold Part.attemptFailed
  (try dsimp only)
  (repeat' split) <;> simp (maxDischargeDepth := 40) [hfr]

@[simp] theorem Part.backoffEnded_frames (p : Part) (front : List TxFrame) (hfr : front <+: p.plp.tx) :
    front <+: p.backoffEnded.plp.tx := by
  unfold Part.backoffEnded
  (try dsimp only)
  (repeat' split) <;> simp (maxDischargeDepth := 40) [hfr]

@[simp] theorem Part.enterHoming_frames (p : Part) (front : List TxFrame) (hfr : front <+: p.plp.tx) :
    front <+: p.enterHoming.plp.tx := by
  unfold Part.enterHoming
  (try dsimp only)
  (repeat' split) <;> simp (maxDischargeDepth := 40) [hfr]

@[simp] theorem Part.enterDocking_frames (p : Part) (front : List TxFrame) (hfr : front <+: p.plp.tx) :
    front <+: p.enterDocking.plp.tx := by
  unfold Part.enterDocking
  (try dsimp only)
  (repeat' split) <;> simp (maxDischargeDepth := 40) [hfr]

@[simp] theorem Part.enterRun_frames (p : Part) (front : List TxFrame) (hfr : front <+: p.plp.tx) :
    front <+: p.enterRun.plp.tx := by
  unfold Part.enterRun
  (try dsimp only)
  (repeat' split) <;> simp (maxDischargeDepth := 40) [hfr]

@[simp] theorem Part.enterManeuver_frames (p : Part) (front : List TxFrame) (hfr : front <+: p.plp.tx) :
    front <+: p.enterManeuver.plp.tx := by
  unfold Part.enterManeuver
  (try dsimp only)
  (repeat' split) <;> simp (maxDischargeDepth := 40) [hfr]

@[simp] theorem Part.resumeReturn_frames (resume : Resume) (p : Part) (front : List TxFrame) (hfr : front
<+: p.plp.tx) :
    front <+: (p.resumeReturn resume).plp.tx := by
  unfold Part.resumeReturn
  (try dsimp only)
  (repeat' split) <;> simp (maxDischargeDepth := 40) [hfr]

@[simp] theorem Part.leaveManeuver_frames (quiet : Bool) (p : Part) (front : List TxFrame) (hfr : front
<+: p.plp.tx) :
    front <+: (p.leaveManeuver quiet).plp.tx := by
  unfold Part.leaveManeuver
  (try dsimp only)
  (repeat' split) <;> simp (maxDischargeDepth := 40) [hfr]

@[simp] theorem Part.installResponse_frames (r : Response) (p : Part) (front : List TxFrame) (hfr : front
<+: p.plp.tx) :
    front <+: (p.installResponse r).plp.tx := by
  unfold Part.installResponse
  (try dsimp only)
  (repeat' split) <;> simp (maxDischargeDepth := 40) [hfr]

@[simp] theorem Part.applyResponse_frames (r : Response) (p : Part) (front : List TxFrame) (hfr : front
<+: p.plp.tx) :
    front <+: (p.applyResponse r).plp.tx := by
  unfold Part.applyResponse
  (try dsimp only)
  (repeat' split) <;> simp (maxDischargeDepth := 40) [hfr]

@[simp] theorem Part.activateBasic_frames (r : Response) (p : Part) (front : List TxFrame) (hfr : front
<+: p.plp.tx) :
    front <+: (p.activateBasic r).plp.tx := by
  unfold Part.activateBasic
  (try dsimp only)
  (repeat' split) <;> simp (maxDischargeDepth := 40) [hfr]

@[simp] theorem Part.takePending_frames (p : Part) (front : List TxFrame) (hfr : front <+: p.plp.tx) :
    front <+: p.takePending.plp.tx := by
  unfold Part.takePending
  (try dsimp only)
  (repeat' split) <;> simp (maxDischargeDepth := 40) [hfr]

@[simp] theorem Part.activate_frames (r : Response) (p : Part) (front : List TxFrame) (hfr : front <+:
p.plp.tx) :
    front <+: (p.activate r).plp.tx := by
  unfold Part.activate
  (try dsimp only)
  (repeat' split) <;> simp (maxDischargeDepth := 40) [hfr]

@[simp] theorem Part.endEffects_frames (a : Action) (stays quiet : Bool) (p : Part) (front : List TxFrame)
(hfr : front <+: p.plp.tx) :
    front <+: (p.endEffects a stays quiet).plp.tx := by
  unfold Part.endEffects
  (try dsimp only)
  (repeat' split) <;> simp (maxDischargeDepth := 40) [hfr]

@[simp] theorem Part.preempt_frames (a r : Response) (p : Part) (front : List TxFrame) (hfr : front <+:
p.plp.tx) :
    front <+: (p.preempt a r).plp.tx := by
  unfold Part.preempt
  (try dsimp only)
  (repeat' split) <;> simp (maxDischargeDepth := 40) [hfr]

@[simp] theorem Part.completeResponse_frames (p : Part) (front : List TxFrame) (hfr : front <+: p.plp.tx)
:
    front <+: p.completeResponse.plp.tx := by
  unfold Part.completeResponse
  (try dsimp only)
  (repeat' split) <;> simp (maxDischargeDepth := 40) [hfr]

@[simp] theorem Part.placePending_frames (r : Response) (p : Part) (front : List TxFrame) (hfr : front <+:
p.plp.tx) :
    front <+: (p.placePending r).plp.tx := by
  unfold Part.placePending
  (try dsimp only)
  (repeat' split) <;> simp (maxDischargeDepth := 40) [hfr]

@[simp] theorem Part.refresh_frames (a : Active) (r : Response) (p : Part) (front : List TxFrame) (hfr :
front <+: p.plp.tx) :
    front <+: (p.refresh a r).plp.tx := by
  unfold Part.refresh
  (try dsimp only)
  (repeat' split) <;> simp (maxDischargeDepth := 40) [hfr]

@[simp] theorem Part.decideResponse_frames (r : Response) (p : Part) (front : List TxFrame) (hfr : front
<+: p.plp.tx) :
    front <+: (p.decideResponse r).plp.tx := by
  unfold Part.decideResponse
  (try dsimp only)
  (repeat' split) <;> simp (maxDischargeDepth := 40) [hfr]

@[simp] theorem Part.deferralLifted_frames (p : Part) (front : List TxFrame) (hfr : front <+: p.plp.tx) :
    front <+: p.deferralLifted.plp.tx := by
  unfold Part.deferralLifted
  (try dsimp only)
  (repeat' split) <;> simp (maxDischargeDepth := 40) [hfr]

@[simp] theorem Part.deferralPass_frames (p : Part) (front : List TxFrame) (hfr : front <+: p.plp.tx) :
    front <+: p.deferralPass.plp.tx := by
  unfold Part.deferralPass
  (try dsimp only)
  (repeat' split) <;> simp (maxDischargeDepth := 40) [hfr]

@[simp] theorem Part.homeBySilence_frames (p : Part) (front : List TxFrame) (hfr : front <+: p.plp.tx) :
    front <+: p.homeBySilence.plp.tx := by
  unfold Part.homeBySilence
  (try dsimp only)
  (repeat' split) <;> simp (maxDischargeDepth := 40) [hfr]

@[simp] theorem Part.endOfTable_frames (w : Walk) (p : Part) (front : List TxFrame) (hfr : front <+:
p.plp.tx) :
    front <+: (p.endOfTable w).plp.tx := by
  unfold Part.endOfTable
  (try dsimp only)
  (repeat' split) <;> simp (maxDischargeDepth := 40) [hfr]

@[simp] theorem Part.walkOn_frames (w : Walk) (index : Nat) (p : Part) (front : List TxFrame) (hfr : front
<+: p.plp.tx) :
    front <+: (p.walkOn w index).plp.tx := by
  unfold Part.walkOn
  (try dsimp only)
  (repeat' split) <;> simp (maxDischargeDepth := 40) [hfr]

@[simp] theorem Part.walkRead_frames (result : Option (List Int)) (p : Part) (front : List TxFrame) (hfr :
front <+: p.plp.tx) :
    front <+: (p.walkRead result).plp.tx := by
  unfold Part.walkRead
  (try dsimp only)
  (repeat' split) <;> simp (maxDischargeDepth := 40) [hfr]

@[simp] theorem Part.creditSegment_frames (step : Nat) (p : Part) (front : List TxFrame) (hfr : front <+:
p.plp.tx) :
    front <+: (p.creditSegment step).plp.tx := by
  unfold Part.creditSegment
  (try dsimp only)
  (repeat' split) <;> simp (maxDischargeDepth := 40) [hfr]

@[simp] theorem Part.creditBackTurn_frames (a : Active) (step : Nat) (p : Part) (front : List TxFrame)
(hfr : front <+: p.plp.tx) :
    front <+: (p.creditBackTurn a step).plp.tx := by
  unfold Part.creditBackTurn
  (try dsimp only)
  (repeat' split) <;> simp (maxDischargeDepth := 40) [hfr]

@[simp] theorem Part.creditLeg_frames (l : Leg) (step : Nat) (p : Part) (front : List TxFrame) (hfr :
front <+: p.plp.tx) :
    front <+: (p.creditLeg l step).plp.tx := by
  unfold Part.creditLeg
  (try dsimp only)
  (repeat' split) <;> simp (maxDischargeDepth := 40) [hfr]

@[simp] theorem Part.creditDock_frames (step : Nat) (p : Part) (front : List TxFrame) (hfr : front <+:
p.plp.tx) :
    front <+: (p.creditDock step).plp.tx := by
  unfold Part.creditDock
  (try dsimp only)
  (repeat' split) <;> simp (maxDischargeDepth := 40) [hfr]

@[simp] theorem Part.creditSource_frames (step : Nat) (p : Part) (front : List TxFrame) (hfr : front <+:
p.plp.tx) :
    front <+: (p.creditSource step).plp.tx := by
  unfold Part.creditSource
  (try dsimp only)
  (repeat' split) <;> simp (maxDischargeDepth := 40) [hfr]

@[simp] theorem Part.creditInterval_frames (p : Part) (front : List TxFrame) (hfr : front <+: p.plp.tx) :
    front <+: p.creditInterval.plp.tx := by
  unfold Part.creditInterval
  (try dsimp only)
  (repeat' split) <;> simp (maxDischargeDepth := 40) [hfr]

@[simp] theorem Part.routeLost_frames (c : Crossing) (p : Part) (front : List TxFrame) (hfr : front <+:
p.plp.tx) :
    front <+: (p.routeLost c).plp.tx := by
  unfold Part.routeLost
  (try dsimp only)
  (repeat' split) <;> simp (maxDischargeDepth := 40) [hfr]

@[simp] theorem Part.receiveCrossing_frames (c : Crossing) (p : Part) (front : List TxFrame) (hfr : front
<+: p.plp.tx) :
    front <+: (p.receiveCrossing c).plp.tx := by
  unfold Part.receiveCrossing
  (try dsimp only)
  (repeat' split) <;> simp (maxDischargeDepth := 40) [hfr]

@[simp] theorem Part.announceZone_frames (z : Nat) (p : Part) (front : List TxFrame) (hfr : front <+:
p.plp.tx) :
    front <+: (p.announceZone z).plp.tx := by
  unfold Part.announceZone
  (try dsimp only)
  (repeat' split) <;> simp (maxDischargeDepth := 40) [hfr]

@[simp] theorem Part.takeZone_frames (z bladeMax : Nat) (p : Part) (front : List TxFrame) (hfr : front <+:
p.plp.tx) :
    front <+: (p.takeZone z bladeMax).plp.tx := by
  unfold Part.takeZone
  (try dsimp only)
  (repeat' split) <;> simp (maxDischargeDepth := 40) [hfr]

@[simp] theorem Part.loseZone_frames (p : Part) (front : List TxFrame) (hfr : front <+: p.plp.tx) :
    front <+: p.loseZone.plp.tx := by
  unfold Part.loseZone
  (try dsimp only)
  (repeat' split) <;> simp (maxDischargeDepth := 40) [hfr]

@[simp] theorem Part.foundZone_frames (ev : ZoneEval) (z bladeMax : Nat) (p : Part) (front : List TxFrame)
(hfr : front <+: p.plp.tx) :
    front <+: (p.foundZone ev z bladeMax).plp.tx := by
  unfold Part.foundZone
  (try dsimp only)
  (repeat' split) <;> simp (maxDischargeDepth := 40) [hfr]

@[simp] theorem Part.foundNoZone_frames (p : Part) (front : List TxFrame) (hfr : front <+: p.plp.tx) :
    front <+: p.foundNoZone.plp.tx := by
  unfold Part.foundNoZone
  (try dsimp only)
  (repeat' split) <;> simp (maxDischargeDepth := 40) [hfr]

@[simp] theorem Part.crossed_frames (c : ZoneChange) (passage : Nat) (p : Part) (front : List TxFrame)
(hfr : front <+: p.plp.tx) :
    front <+: (p.crossed c passage).plp.tx := by
  unfold Part.crossed
  (try dsimp only)
  (repeat' split) <;> simp (maxDischargeDepth := 40) [hfr]

@[simp] theorem Part.strayed_frames (c : ZoneChange) (p : Part) (front : List TxFrame) (hfr : front <+:
p.plp.tx) :
    front <+: (p.strayed c).plp.tx := by
  unfold Part.strayed
  (try dsimp only)
  (repeat' split) <;> simp (maxDischargeDepth := 40) [hfr]

@[simp] theorem Part.evalRead_frames (result : Option (List Int)) (p : Part) (front : List TxFrame) (hfr :
front <+: p.plp.tx) :
    front <+: (p.evalRead result).plp.tx := by
  unfold Part.evalRead
  (try dsimp only)
  (repeat' split) <;> simp (maxDischargeDepth := 40) [hfr]

@[simp] theorem Part.announceCross_frames (awaited : Option Nat) (k : Nat) (p : Part) (front : List
TxFrame) (hfr : front <+: p.plp.tx) :
    front <+: (p.announceCross awaited k).plp.tx := by
  unfold Part.announceCross
  (try dsimp only)
  (repeat' split) <;> simp (maxDischargeDepth := 40) [hfr]

@[simp] theorem Part.handOut_frames (awaited : Option Nat) (number : Byte) (i : Fin 8) (before after :
LoopTrack) (p : Part) (front : List TxFrame) (hfr : front <+: p.plp.tx) :
    front <+: (p.handOut awaited number i before after).plp.tx := by
  unfold Part.handOut
  (try dsimp only)
  (repeat' split) <;> simp (maxDischargeDepth := 40) [hfr]

@[simp] theorem Part.handOutAll_frames (awaited : Option Nat) (number : Byte) (before : Eight LoopTrack)
(x0 : List (Fin 8)) (p : Part) (front : List TxFrame) (hfr : front <+: p.plp.tx) :
    front <+: (p.handOutAll awaited number before x0).plp.tx := by
  induction x0 generalizing p with
  | nil => simp [Part.handOutAll, hfr]
  | cons c cs ih => simp only [Part.handOutAll]; (repeat' split) <;> first | exact ih _ (by simp (maxDischargeDepth := 40) [hfr]) | simp (maxDischargeDepth := 40) [hfr]

@[simp] theorem Part.frameDone_frames (f : CoilFrame) (reads : List LoopRead) (p : Part) (front : List
TxFrame) (hfr : front <+: p.plp.tx) :
    front <+: (p.frameDone f reads).plp.tx := by
  unfold Part.frameDone
  (try dsimp only)
  (repeat' split) <;> simp (maxDischargeDepth := 40) [hfr]

@[simp] theorem Part.correlatorRead_frames (result : Option (List Int)) (p : Part) (front : List TxFrame)
(hfr : front <+: p.plp.tx) :
    front <+: (p.correlatorRead result).plp.tx := by
  unfold Part.correlatorRead
  (try dsimp only)
  (repeat' split) <;> simp (maxDischargeDepth := 40) [hfr]

@[simp] theorem Part.staleLoop_frames (i : Fin 8) (p : Part) (front : List TxFrame) (hfr : front <+:
p.plp.tx) :
    front <+: (p.staleLoop i).plp.tx := by
  unfold Part.staleLoop
  (try dsimp only)
  (repeat' split) <;> simp (maxDischargeDepth := 40) [hfr]

@[simp] theorem Part.coilStale_frames (p : Part) (front : List TxFrame) (hfr : front <+: p.plp.tx) :
    front <+: p.coilStale.plp.tx := by
  simp only [Part.coilStale, loopIndices, List.foldl]
  split <;> simp (maxDischargeDepth := 40) [hfr]

@[simp] theorem Part.pushCrossing_frames (c : Crossing) (p : Part) (front : List TxFrame) (hfr : front <+:
p.plp.tx) :
    front <+: (p.pushCrossing c).plp.tx := by
  unfold Part.pushCrossing
  (try dsimp only)
  (repeat' split) <;> simp (maxDischargeDepth := 40) [hfr]

@[simp] theorem Part.applyCrossing_frames (c : Crossing) (leaving entering : Nat) (p : Part) (front : List
TxFrame) (hfr : front <+: p.plp.tx) :
    front <+: (p.applyCrossing c leaving entering).plp.tx := by
  unfold Part.applyCrossing
  (try dsimp only)
  (repeat' split) <;> simp (maxDischargeDepth := 40) [hfr]

@[simp] theorem Part.crossingRead_frames (result : Option (List Int)) (p : Part) (front : List TxFrame)
(hfr : front <+: p.plp.tx) :
    front <+: (p.crossingRead result).plp.tx := by
  unfold Part.crossingRead
  (try dsimp only)
  (repeat' split) <;> simp (maxDischargeDepth := 40) [hfr]

@[simp] theorem Part.beginPlanning_frames (p : Part) (front : List TxFrame) (hfr : front <+: p.plp.tx) :
    front <+: p.beginPlanning.plp.tx := by
  unfold Part.beginPlanning
  (try dsimp only)
  (repeat' split) <;> simp (maxDischargeDepth := 40) [hfr]

@[simp] theorem Part.planFailed_frames (p : Part) (front : List TxFrame) (hfr : front <+: p.plp.tx) :
    front <+: p.planFailed.plp.tx := by
  unfold Part.planFailed
  (try dsimp only)
  (repeat' split) <;> simp (maxDischargeDepth := 40) [hfr]

@[simp] theorem Part.planPassage_frames (pl : Planning) (search index : Nat) (via : Via) (e :
PassageEntry) (p : Part) (front : List TxFrame) (hfr : front <+: p.plp.tx) :
    front <+: (p.planPassage pl search index via e).plp.tx := by
  unfold Part.planPassage
  (try dsimp only)
  (repeat' split) <;> simp (maxDischargeDepth := 40) [hfr]

@[simp] theorem Part.planRead_frames (result : Option (List Int)) (p : Part) (front : List TxFrame) (hfr :
front <+: p.plp.tx) :
    front <+: (p.planRead result).plp.tx := by
  unfold Part.planRead
  (try dsimp only)
  (repeat' split) <;> simp (maxDischargeDepth := 40) [hfr]

@[simp] theorem Part.returnPass_frames (p : Part) (front : List TxFrame) (hfr : front <+: p.plp.tx) :
    front <+: p.returnPass.plp.tx := by
  unfold Part.returnPass
  (try dsimp only)
  (repeat' split) <;> simp (maxDischargeDepth := 40) [hfr]

@[simp] theorem Part.contactSeen_frames (p : Part) (front : List TxFrame) (hfr : front <+: p.plp.tx) :
    front <+: p.contactSeen.plp.tx := by
  unfold Part.contactSeen
  (try dsimp only)
  (repeat' split) <;> simp (maxDischargeDepth := 40) [hfr]

@[simp] theorem Part.countContact_frames (contact : Nat) (p : Part) (front : List TxFrame) (hfr : front
<+: p.plp.tx) :
    front <+: (p.countContact contact).plp.tx := by
  unfold Part.countContact
  (try dsimp only)
  (repeat' split) <;> simp (maxDischargeDepth := 40) [hfr]

@[simp] theorem Part.environmentStale_frames (p : Part) (front : List TxFrame) (hfr : front <+: p.plp.tx)
:
    front <+: p.environmentStale.plp.tx := by
  unfold Part.environmentStale
  (try dsimp only)
  (repeat' split) <;> simp (maxDischargeDepth := 40) [hfr]

@[simp] theorem Part.logError_frames (reader : Reader) (e : FoundError) (p : Part) (front : List TxFrame)
(hfr : front <+: p.plp.tx) :
    front <+: (p.logError reader e).plp.tx := by
  unfold Part.logError
  (try dsimp only)
  (repeat' split) <;> simp (maxDischargeDepth := 40) [hfr]

@[simp] theorem Part.logErrors_frames (reader : Reader) (x0 : List FoundError) (p : Part) (front : List
TxFrame) (hfr : front <+: p.plp.tx) :
    front <+: (p.logErrors reader x0).plp.tx := by
  induction x0 generalizing p with
  | nil => simp [Part.logErrors, hfr]
  | cons c cs ih => simp only [Part.logErrors]; (repeat' split) <;> first | exact ih _ (by simp (maxDischargeDepth := 40) [hfr]) | simp (maxDischargeDepth := 40) [hfr]

@[simp] theorem Part.poison_frames (t : Table) (i : Nat) (reader : Reader) (own : Bool) (p : Part) (front
: List TxFrame) (hfr : front <+: p.plp.tx) :
    front <+: (p.poison t i reader own).plp.tx := by
  unfold Part.poison
  (try dsimp only)
  (repeat' split) <;> simp (maxDischargeDepth := 40) [hfr]

@[simp] theorem Part.tableFault_frames (p : Part) (front : List TxFrame) (hfr : front <+: p.plp.tx) :
    front <+: p.tableFault.plp.tx := by
  unfold Part.tableFault
  (try dsimp only)
  (repeat' split) <;> simp (maxDischargeDepth := 40) [hfr]

@[simp] theorem Part.answer_frames (code : AnswerCode) (data : List Byte) (p : Part) (front : List
TxFrame) (hfr : front <+: p.plp.tx) :
    front <+: (p.answer code data).plp.tx := by
  unfold Part.answer
  (try dsimp only)
  (repeat' split) <;> simp (maxDischargeDepth := 40) [hfr]

@[simp] theorem Part.modeOk_frames (p : Part) (front : List TxFrame) (hfr : front <+: p.plp.tx) :
    front <+: p.modeOk.plp.tx := by
  unfold Part.modeOk
  (try dsimp only)
  (repeat' split) <;> simp (maxDischargeDepth := 40) [hfr]

@[simp] theorem Part.modeRun_frames (p : Part) (front : List TxFrame) (hfr : front <+: p.plp.tx) :
    front <+: p.modeRun.plp.tx := by
  unfold Part.modeRun
  (try dsimp only)
  (repeat' split) <;> simp (maxDischargeDepth := 40) [hfr]

@[simp] theorem Part.modeHome_frames (p : Part) (front : List TxFrame) (hfr : front <+: p.plp.tx) :
    front <+: p.modeHome.plp.tx := by
  unfold Part.modeHome
  (try dsimp only)
  (repeat' split) <;> simp (maxDischargeDepth := 40) [hfr]

@[simp] theorem Part.modeIdle_frames (p : Part) (front : List TxFrame) (hfr : front <+: p.plp.tx) :
    front <+: p.modeIdle.plp.tx := by
  unfold Part.modeIdle
  (try dsimp only)
  (repeat' split) <;> simp (maxDischargeDepth := 40) [hfr]

@[simp] theorem Part.modeClear_frames (p : Part) (front : List TxFrame) (hfr : front <+: p.plp.tx) :
    front <+: p.modeClear.plp.tx := by
  unfold Part.modeClear
  (try dsimp only)
  (repeat' split) <;> simp (maxDischargeDepth := 40) [hfr]

@[simp] theorem Part.modeRequest_frames (code : Nat) (p : Part) (front : List TxFrame) (hfr : front <+:
p.plp.tx) :
    front <+: (p.modeRequest code).plp.tx := by
  unfold Part.modeRequest
  (try dsimp only)
  (repeat' split) <;> simp (maxDischargeDepth := 40) [hfr]

@[simp] theorem Part.finishCheck_frames (home : Bool) (perimeter : Nat) (p : Part) (front : List TxFrame)
(hfr : front <+: p.plp.tx) :
    front <+: (p.finishCheck home perimeter).plp.tx := by
  unfold Part.finishCheck
  (try dsimp only)
  (repeat' split) <;> simp (maxDischargeDepth := 40) [hfr]

@[simp] theorem Part.loopsChecked_frames (home : Bool) (perimeters : List Nat) (p : Part) (front : List
TxFrame) (hfr : front <+: p.plp.tx) :
    front <+: (p.loopsChecked home perimeters).plp.tx := by
  unfold Part.loopsChecked
  (try dsimp only)
  (repeat' split) <;> simp (maxDischargeDepth := 40) [hfr]

@[simp] theorem Part.checkRead_frames (home : Bool) (stage : CheckStage) (result : Option (List Int)) (p :
Part) (front : List TxFrame) (hfr : front <+: p.plp.tx) :
    front <+: (p.checkRead home stage result).plp.tx := by
  unfold Part.checkRead
  (try dsimp only)
  (repeat' split) <;> simp (maxDischargeDepth := 40) [hfr]

@[simp] theorem Part.placeChecked_frames (segments : List Segment) (p : Part) (front : List TxFrame) (hfr
: front <+: p.plp.tx) :
    front <+: (p.placeChecked segments).plp.tx := by
  unfold Part.placeChecked
  (try dsimp only)
  (repeat' split) <;> simp (maxDischargeDepth := 40) [hfr]

@[simp] theorem Part.appendOn_frames (segments : List Segment) (todo : List AppendCheck) (p : Part) (front
: List TxFrame) (hfr : front <+: p.plp.tx) :
    front <+: (p.appendOn segments todo).plp.tx := by
  unfold Part.appendOn
  (try dsimp only)
  (repeat' split) <;> simp (maxDischargeDepth := 40) [hfr]

@[simp] theorem Part.appendRead_frames (segments : List Segment) (todo : List AppendCheck) (result :
Option (List Int)) (p : Part) (front : List TxFrame) (hfr : front <+: p.plp.tx) :
    front <+: (p.appendRead segments todo result).plp.tx := by
  unfold Part.appendRead
  (try dsimp only)
  (repeat' split) <;> simp (maxDischargeDepth := 40) [hfr]

@[simp] theorem Part.planAppend_frames (body : List Byte) (p : Part) (front : List TxFrame) (hfr : front
<+: p.plp.tx) :
    front <+: (p.planAppend body).plp.tx := by
  unfold Part.planAppend
  (try dsimp only)
  (repeat' split) <;> simp (maxDischargeDepth := 40) [hfr]

@[simp] theorem Part.planFlush_frames (p : Part) (front : List TxFrame) (hfr : front <+: p.plp.tx) :
    front <+: p.planFlush.plp.tx := by
  unfold Part.planFlush
  (try dsimp only)
  (repeat' split) <;> simp (maxDischargeDepth := 40) [hfr]

@[simp] theorem Part.checkWrite_frames (t : Table) (i : Nat) (mask : BitVec 64) (fields : List Int) (todo
: List WriteCheck) (p : Part) (front : List TxFrame) (hfr : front <+: p.plp.tx) :
    front <+: (p.checkWrite t i mask fields todo).plp.tx := by
  unfold Part.checkWrite
  (try dsimp only)
  (repeat' split) <;> simp (maxDischargeDepth := 40) [hfr]

@[simp] theorem Part.writeCheckRead_frames (t : Table) (i : Nat) (mask : BitVec 64) (fields : List Int)
(todo : List WriteCheck) (result : Option (List Int)) (p : Part) (front : List TxFrame) (hfr : front <+:
p.plp.tx) :
    front <+: (p.writeCheckRead t i mask fields todo result).plp.tx := by
  unfold Part.writeCheckRead
  (try dsimp only)
  (repeat' split) <;> simp (maxDischargeDepth := 40) [hfr]

@[simp] theorem Part.tableWrite_frames (t : Table) (body : List Byte) (p : Part) (front : List TxFrame)
(hfr : front <+: p.plp.tx) :
    front <+: (p.tableWrite t body).plp.tx := by
  unfold Part.tableWrite
  (try dsimp only)
  (repeat' split) <;> simp (maxDischargeDepth := 40) [hfr]

@[simp] theorem Part.tableRead_frames (t : Table) (i : Nat) (p : Part) (front : List TxFrame) (hfr : front
<+: p.plp.tx) :
    front <+: (p.tableRead t i).plp.tx := by
  unfold Part.tableRead
  (try dsimp only)
  (repeat' split) <;> simp (maxDischargeDepth := 40) [hfr]

@[simp] theorem Part.tableReadDone_frames (t : Table) (i : Nat) (result : Option (List Int)) (p : Part)
(front : List TxFrame) (hfr : front <+: p.plp.tx) :
    front <+: (p.tableReadDone t i result).plp.tx := by
  unfold Part.tableReadDone
  (try dsimp only)
  (repeat' split) <;> simp (maxDischargeDepth := 40) [hfr]

@[simp] theorem Part.controlStore_frames (parts : Byte) (m : StoreMode) (pattern : Nat) (p : Part) (front
: List TxFrame) (hfr : front <+: p.plp.tx) :
    front <+: (p.controlStore parts m pattern).plp.tx := by
  unfold Part.controlStore
  (try dsimp only)
  (repeat' split) <;> simp (maxDischargeDepth := 40) [hfr]

@[simp] theorem Part.storeControl_frames (parts mode pattern : Byte) (p : Part) (front : List TxFrame)
(hfr : front <+: p.plp.tx) :
    front <+: (p.storeControl parts mode pattern).plp.tx := by
  unfold Part.storeControl
  (try dsimp only)
  (repeat' split) <;> simp (maxDischargeDepth := 40) [hfr]

@[simp] theorem Part.collect_frames (code : Byte) (p : Part) (front : List TxFrame) (hfr : front <+:
p.plp.tx) :
    front <+: (p.collect code).plp.tx := by
  unfold Part.collect
  (try dsimp only)
  (repeat' split) <;> simp (maxDischargeDepth := 40) [hfr]

@[simp] theorem Part.restartRequest_frames (p : Part) (front : List TxFrame) (hfr : front <+: p.plp.tx) :
    front <+: p.restartRequest.plp.tx := by
  unfold Part.restartRequest
  (try dsimp only)
  (repeat' split) <;> simp (maxDischargeDepth := 40) [hfr]

@[simp] theorem Part.handOver_frames (kind : Nat) (body : List Byte) (p : Part) (front : List TxFrame)
(hfr : front <+: p.plp.tx) :
    front <+: (p.handOver kind body).plp.tx := by
  unfold Part.handOver
  (try dsimp only)
  (repeat' split) <;> simp (maxDischargeDepth := 40) [hfr]

@[simp] theorem Part.takeTable_frames (isWrite : Bool) (body : List Byte) (p : Part) (front : List
TxFrame) (hfr : front <+: p.plp.tx) :
    front <+: (p.takeTable isWrite body).plp.tx := by
  unfold Part.takeTable
  (try dsimp only)
  (repeat' split) <;> simp (maxDischargeDepth := 40) [hfr]

@[simp] theorem Part.takeFrame_frames (kind : Byte) (body : List Byte) (p : Part) (front : List TxFrame)
(hfr : front <+: p.plp.tx) :
    front <+: (p.takeFrame kind body).plp.tx := by
  unfold Part.takeFrame
  (try dsimp only)
  (repeat' split) <;> simp (maxDischargeDepth := 40) [hfr]

@[simp] theorem Part.loseNode_frames (n : Fin 3) (p : Part) (front : List TxFrame) (hfr : front <+:
p.plp.tx) :
    front <+: (p.loseNode n).plp.tx := by
  unfold Part.loseNode
  (try dsimp only)
  (repeat' split) <;> simp (maxDischargeDepth := 40) [hfr]

@[simp] theorem Part.nodeOnline_frames (n : Fin 3) (p : Part) (front : List TxFrame) (hfr : front <+:
p.plp.tx) :
    front <+: (p.nodeOnline n).plp.tx := by
  unfold Part.nodeOnline
  (try dsimp only)
  (repeat' split) <;> simp (maxDischargeDepth := 40) [hfr]

@[simp] theorem Part.nodeHolding_frames (n : Fin 3) (p : Part) (front : List TxFrame) (hfr : front <+:
p.plp.tx) :
    front <+: (p.nodeHolding n).plp.tx := by
  unfold Part.nodeHolding
  (try dsimp only)
  (repeat' split) <;> simp (maxDischargeDepth := 40) [hfr]

@[simp] theorem Part.holdExchange_frames (n : Fin 3) (p : Part) (front : List TxFrame) (hfr : front <+:
p.plp.tx) :
    front <+: (p.holdExchange n).plp.tx := by
  unfold Part.holdExchange
  (try dsimp only)
  (repeat' split) <;> simp (maxDischargeDepth := 40) [hfr]

@[simp] theorem Part.answerYield_frames (n : Fin 3) (p : Part) (front : List TxFrame) (hfr : front <+:
p.plp.tx) :
    front <+: (p.answerYield n).plp.tx := by
  unfold Part.answerYield
  (try dsimp only)
  (repeat' split) <;> simp (maxDischargeDepth := 40) [hfr]

@[simp] theorem Part.refusalHeld_frames (n : Fin 3) (code : Option Nat) (refused : Bool) (p : Part) (front
: List TxFrame) (hfr : front <+: p.plp.tx) :
    front <+: (p.refusalHeld n code refused).plp.tx := by
  unfold Part.refusalHeld
  (try dsimp only)
  (repeat' split) <;> simp (maxDischargeDepth := 40) [hfr]

@[simp] theorem Part.answerReject_frames (n : Fin 3) (e : Exchange) (p : Part) (front : List TxFrame) (hfr
: front <+: p.plp.tx) :
    front <+: (p.answerReject n e).plp.tx := by
  unfold Part.answerReject
  (try dsimp only)
  (repeat' split) <;> simp (maxDischargeDepth := 40) [hfr]

@[simp] theorem Part.answerAccept_frames (a : NodeAnswer) (e : Exchange) (p : Part) (front : List TxFrame)
(hfr : front <+: p.plp.tx) :
    front <+: (p.answerAccept a e).plp.tx := by
  unfold Part.answerAccept
  (try dsimp only)
  (repeat' split) <;> simp (maxDischargeDepth := 40) [hfr]

@[simp] theorem Part.acceptSuperseded_frames (n : Fin 3) (p : Part) (front : List TxFrame) (hfr : front
<+: p.plp.tx) :
    front <+: (p.acceptSuperseded n).plp.tx := by
  unfold Part.acceptSuperseded
  (try dsimp only)
  (repeat' split) <;> simp (maxDischargeDepth := 40) [hfr]

@[simp] theorem Part.exchangeAnswer_frames (a : NodeAnswer) (e : Exchange) (p : Part) (front : List
TxFrame) (hfr : front <+: p.plp.tx) :
    front <+: (p.exchangeAnswer a e).plp.tx := by
  unfold Part.exchangeAnswer
  (try dsimp only)
  (repeat' split) <;> simp (maxDischargeDepth := 40) [hfr]

@[simp] theorem Part.grantAnswer_frames (a : NodeAnswer) (p : Part) (front : List TxFrame) (hfr : front
<+: p.plp.tx) :
    front <+: (p.grantAnswer a).plp.tx := by
  unfold Part.grantAnswer
  (try dsimp only)
  (repeat' split) <;> simp (maxDischargeDepth := 40) [hfr]

@[simp] theorem Part.nodeAnswered_frames (a : NodeAnswer) (p : Part) (front : List TxFrame) (hfr : front
<+: p.plp.tx) :
    front <+: (p.nodeAnswered a).plp.tx := by
  unfold Part.nodeAnswered
  (try dsimp only)
  (repeat' split) <;> simp (maxDischargeDepth := 40) [hfr]

@[simp] theorem Part.responseTimedOut_frames (p : Part) (front : List TxFrame) (hfr : front <+: p.plp.tx)
:
    front <+: p.responseTimedOut.plp.tx := by
  unfold Part.responseTimedOut
  (try dsimp only)
  (repeat' split) <;> simp (maxDischargeDepth := 40) [hfr]

@[simp] theorem Part.plannerResult_frames (result : Option (List Int)) (p : Part) (front : List TxFrame)
(hfr : front <+: p.plp.tx) :
    front <+: (p.plannerResult result).plp.tx := by
  unfold Part.plannerResult
  (try dsimp only)
  (repeat' split) <;> simp (maxDischargeDepth := 40) [hfr]

@[simp] theorem Part.deliver_frames (owner : Owner) (result : Option (List Int)) (p : Part) (front : List
TxFrame) (hfr : front <+: p.plp.tx) :
    front <+: (p.deliver owner result).plp.tx := by
  unfold Part.deliver
  (try dsimp only)
  (repeat' split) <;> simp (maxDischargeDepth := 40) [hfr]

@[simp] theorem Part.readConsequence_frames (m : StoreMode) (t : Table) (i : Nat) (reader : Reader) (own :
Bool) (errors : List FoundError) (p : Part) (front : List TxFrame) (hfr : front <+: p.plp.tx) :
    front <+: (p.readConsequence m t i reader own errors).plp.tx := by
  unfold Part.readConsequence
  (try dsimp only)
  (repeat' split) <;> simp (maxDischargeDepth := 40) [hfr]

@[simp] theorem Part.checkEntry_frames (a : Access) (t : Table) (i : Nat) (words : List StoredWord)
(findings : List WordFinding) (p : Part) (front : List TxFrame) (hfr : front <+: p.plp.tx) :
    front <+: (p.checkEntry a t i words findings).plp.tx := by
  unfold Part.checkEntry
  (try dsimp only)
  (repeat' split) <;> simp (maxDischargeDepth := 40) [hfr]

@[simp] theorem Part.completeRead_frames (a : Access) (t : Table) (i : Nat) (words : List StoredWord) (p :
Part) (front : List TxFrame) (hfr : front <+: p.plp.tx) :
    front <+: (p.completeRead a t i words).plp.tx := by
  unfold Part.completeRead
  (try dsimp only)
  (repeat' split) <;> simp (maxDischargeDepth := 40) [hfr]

@[simp] theorem Part.answerWrite_frames (a : Access) (code : AnswerCode) (p : Part) (front : List TxFrame)
(hfr : front <+: p.plp.tx) :
    front <+: (p.answerWrite a code).plp.tx := by
  unfold Part.answerWrite
  (try dsimp only)
  (repeat' split) <;> simp (maxDischargeDepth := 40) [hfr]

@[simp] theorem Part.completeFull_frames (a : Access) (t : Table) (i : Nat) (fields : List Int) (p : Part)
(front : List TxFrame) (hfr : front <+: p.plp.tx) :
    front <+: (p.completeFull a t i fields).plp.tx := by
  unfold Part.completeFull
  (try dsimp only)
  (repeat' split) <;> simp (maxDischargeDepth := 40) [hfr]

@[simp] theorem Part.completePartial_frames (a : Access) (t : Table) (i : Nat) (outcome : PartialOutcome)
(p : Part) (front : List TxFrame) (hfr : front <+: p.plp.tx) :
    front <+: (p.completePartial a t i outcome).plp.tx := by
  unfold Part.completePartial
  (try dsimp only)
  (repeat' split) <;> simp (maxDischargeDepth := 40) [hfr]

@[simp] theorem Part.scrubConsequence_frames (n : Nat) (e : FoundError) (p : Part) (front : List TxFrame)
(hfr : front <+: p.plp.tx) :
    front <+: (p.scrubConsequence n e).plp.tx := by
  unfold Part.scrubConsequence
  (try dsimp only)
  (repeat' split) <;> simp (maxDischargeDepth := 40) [hfr]

@[simp] theorem Part.completeScrub_frames (n : Nat) (w : StoredWord) (p : Part) (front : List TxFrame)
(hfr : front <+: p.plp.tx) :
    front <+: (p.completeScrub n w).plp.tx := by
  unfold Part.completeScrub
  (try dsimp only)
  (repeat' split) <;> simp (maxDischargeDepth := 40) [hfr]

@[simp] theorem Part.grantStoreFrom_frames (x0 : Nat) (p : Part) (front : List TxFrame) (hfr : front <+:
p.plp.tx) :
    front <+: (p.grantStoreFrom x0).plp.tx := by
  induction x0 generalizing p with
  | zero => simp [Part.grantStoreFrom, hfr]
  | succ n ih => simp only [Part.grantStoreFrom]; (repeat' split) <;> first | exact ih _ (by simp (maxDischargeDepth := 40) [hfr]) | simp (maxDischargeDepth := 40) [hfr]

@[simp] theorem Part.grantStore_frames (p : Part) (front : List TxFrame) (hfr : front <+: p.plp.tx) :
    front <+: p.grantStore.plp.tx := by
  unfold Part.grantStore
  (try dsimp only)
  (repeat' split) <;> simp (maxDischargeDepth := 40) [hfr]

@[simp] theorem Part.settleMotion_frames (p : Part) (front : List TxFrame) (hfr : front <+: p.plp.tx) :
    front <+: p.settleMotion.plp.tx := by
  unfold Part.settleMotion Part.passIf
  dsimp only
  (repeat' split) <;> simp (maxDischargeDepth := 40) [hfr]

@[simp] theorem Part.settleGrants_frames (p : Part) (front : List TxFrame) (hfr : front <+: p.plp.tx) :
    front <+: p.settleGrants.plp.tx := by
  unfold Part.settleGrants Part.passIf
  dsimp only
  (repeat' split) <;> simp (maxDischargeDepth := 40) [hfr]

@[simp] theorem Part.settle_frames (p : Part) (front : List TxFrame) (hfr : front <+: p.plp.tx) :
    front <+: p.settle.plp.tx := by
  unfold Part.settle
  (try dsimp only)
  (repeat' split) <;> simp (maxDischargeDepth := 40) [hfr]

@[simp] theorem Part.conclude_frames (p : Part) (front : List TxFrame) (hfr : front <+: p.plp.tx) :
    front <+: p.conclude.plp.tx := by
  unfold Part.conclude Part.passIf
  dsimp only
  (repeat' split) <;> simp (maxDischargeDepth := 40) [hfr]

@[simp] theorem Part.takeNext_frames (f : RxFrame) (p : Part) (front : List TxFrame) (hfr : front <+:
p.plp.tx) :
    front <+: (p.takeNext f).plp.tx := by
  unfold Part.takeNext
  (try dsimp only)
  (repeat' split) <;> simp (maxDischargeDepth := 40) [hfr]

@[simp] theorem Part.serveFrom_frames (x0 : Nat) (p : Part) (front : List TxFrame) (hfr : front <+:
p.plp.tx) :
    front <+: (p.serveFrom x0).plp.tx := by
  induction x0 generalizing p with
  | zero => simp [Part.serveFrom, hfr]
  | succ n ih => simp only [Part.serveFrom]; (repeat' split) <;> first | exact ih _ (by simp (maxDischargeDepth := 40) [hfr]) | simp (maxDischargeDepth := 40) [hfr]

@[simp] theorem Part.serve_frames (p : Part) (front : List TxFrame) (hfr : front <+: p.plp.tx) :
    front <+: p.serve.plp.tx := by
  unfold Part.serve
  (try dsimp only)
  (repeat' split) <;> simp (maxDischargeDepth := 40) [hfr]

@[simp] theorem Part.environmentFrame_frames (h : SenseHead) (rain battery contact : Nat) (p : Part)
(front : List TxFrame) (hfr : front <+: p.plp.tx) :
    front <+: (p.environmentFrame h rain battery contact).plp.tx := by
  unfold Part.environmentFrame
  (try dsimp only)
  (repeat' split) <;> simp (maxDischargeDepth := 40) [hfr]

@[simp] theorem Part.sensorStale_frames (n : Fin 5) (p : Part) (front : List TxFrame) (hfr : front <+:
p.plp.tx) :
    front <+: (p.sensorStale n).plp.tx := by
  unfold Part.sensorStale
  (try dsimp only)
  (repeat' split) <;> simp (maxDischargeDepth := 40) [hfr]

@[simp] theorem Part.silence_frames (p : Part) (front : List TxFrame) (hfr : front <+: p.plp.tx) :
    front <+: p.silence.plp.tx := by
  unfold Part.silence
  (try dsimp only)
  (repeat' split) <;> simp (maxDischargeDepth := 40) [hfr]

@[simp] theorem Part.keepExpired_frames (p : Part) (front : List TxFrame) (hfr : front <+: p.plp.tx) :
    front <+: p.keepExpired.plp.tx := by
  unfold Part.keepExpired
  (try dsimp only)
  (repeat' split) <;> simp (maxDischargeDepth := 40) [hfr]

@[simp] theorem Part.periodExpired_frames (p : Part) (front : List TxFrame) (hfr : front <+: p.plp.tx) :
    front <+: p.periodExpired.plp.tx := by
  unfold Part.periodExpired
  (try dsimp only)
  (repeat' split) <;> simp (maxDischargeDepth := 40) [hfr]

@[simp] theorem Part.responseHoldExpired_frames (p : Part) (front : List TxFrame) (hfr : front <+:
p.plp.tx) :
    front <+: p.responseHoldExpired.plp.tx := by
  unfold Part.responseHoldExpired
  (try dsimp only)
  (repeat' split) <;> simp (maxDischargeDepth := 40) [hfr]

@[simp] theorem Part.noticeHoldExpired_frames (c : NoticeClass) (p : Part) (front : List TxFrame) (hfr :
front <+: p.plp.tx) :
    front <+: (p.noticeHoldExpired c).plp.tx := by
  unfold Part.noticeHoldExpired
  (try dsimp only)
  (repeat' split) <;> simp (maxDischargeDepth := 40) [hfr]

@[simp] theorem Part.noticeQuietExpired_frames (c : NoticeClass) (p : Part) (front : List TxFrame) (hfr :
front <+: p.plp.tx) :
    front <+: (p.noticeQuietExpired c).plp.tx := by
  unfold Part.noticeQuietExpired
  (try dsimp only)
  (repeat' split) <;> simp (maxDischargeDepth := 40) [hfr]

end Sys2Proof.Machine
end

