-- ==== Sys2Proof/Laws/Memory.lean ====
section
/-! SUPPORT. The table memory: every operation keeps its canonical form, and what a word reads as after a
write. -/

namespace Sys2Proof.Machine

/-- A canonical list above a bound is canonical above a lower one. -/
theorem Memory.wfFrom_mono (lo hi : Nat) (m : Memory) (h : lo ≤ hi) (hm : Memory.wfFrom hi m = true) :
    Memory.wfFrom lo m = true := by
  cases m with
  | nil => rfl
  | cons c cs =>
    obtain ⟨n, w⟩ := c
    simp only [Memory.wfFrom, Bool.and_eq_true, decide_eq_true_eq] at hm ⊢
    exact ⟨⟨⟨by omega, hm.1.1.2⟩, hm.1.2⟩, hm.2⟩

/-- A canonical list above a bound does not list a lower number. -/
theorem Memory.lookup_of_wfFrom (lo n : Nat) (m : Memory) (h : n < lo) (hm : Memory.wfFrom lo m = true) :
    m.lookup n = none := by
  induction m generalizing lo with
  | nil => rfl
  | cons c cs ih =>
    obtain ⟨k, w⟩ := c
    simp only [Memory.wfFrom, Bool.and_eq_true, decide_eq_true_eq] at hm
    have hk : (n == k) = false := by simp; omega
    simp only [List.lookup, hk]
    exact ih (k + 1) (by omega) hm.2

theorem Memory.erase_of_wfFrom (lo n : Nat) (m : Memory) (h : n < lo) (hm : Memory.wfFrom lo m = true) :
    m.erase n = m := by
  induction m generalizing lo with
  | nil => rfl
  | cons c cs ih =>
    obtain ⟨k, w⟩ := c
    simp only [Memory.wfFrom, Bool.and_eq_true, decide_eq_true_eq] at hm
    have hk : k ≠ n := by omega
    simp only [Memory.erase, hk, if_false]
    rw [ih (k + 1) (by omega) hm.2]

/-- Removing a word keeps the canonical form. -/
theorem Memory.wfFrom_erase (lo n : Nat) (m : Memory) (hm : Memory.wfFrom lo m = true) :
    Memory.wfFrom lo (m.erase n) = true := by
  induction m generalizing lo with
  | nil => rfl
  | cons c cs ih =>
    obtain ⟨k, w⟩ := c
    simp only [Memory.wfFrom, Bool.and_eq_true, decide_eq_true_eq] at hm
    by_cases hk : k = n
    · simp only [Memory.erase, hk, if_true]
      exact Memory.wfFrom_mono lo (k + 1) _ (by omega) (hk ▸ ih (k + 1) hm.2)
    · simp only [Memory.erase, hk, if_false, Memory.wfFrom, Bool.and_eq_true, decide_eq_true_eq]
      exact ⟨hm.1, ih (k + 1) hm.2⟩

/-- Putting a word that is not listed in its place keeps the canonical form. -/
theorem Memory.wfFrom_insert (lo n : Nat) (w : StoredWord) (m : Memory) (hm : Memory.wfFrom lo m = true)
    (hlo : lo ≤ n) (hn : n < Config.storeWords) (hw : w ≠ powerOnWord n) (hl : m.lookup n = none) :
    Memory.wfFrom lo (m.insert n w) = true := by
  induction m generalizing lo with
  | nil => simp [Memory.insert, Memory.wfFrom, hlo, hn, hw]
  | cons c cs ih =>
    obtain ⟨k, v⟩ := c
    simp only [Memory.wfFrom, Bool.and_eq_true, decide_eq_true_eq] at hm
    by_cases hk : n < k
    · simp only [Memory.insert, hk, if_true, Memory.wfFrom, Bool.and_eq_true, decide_eq_true_eq]
      exact ⟨⟨⟨hlo, hn⟩, hw⟩, ⟨⟨by omega, hm.1.1.2⟩, hm.1.2⟩, hm.2⟩
    · have hne : n ≠ k := by
        rintro rfl
        simp [List.lookup] at hl
      have hb : (n == k) = false := by simpa using hne
      simp only [List.lookup, hb] at hl
      simp only [Memory.insert, hk, if_false, Memory.wfFrom, Bool.and_eq_true, decide_eq_true_eq]
      exact ⟨hm.1, ih (k + 1) hm.2 (by omega) hl⟩

/-- A word that has been removed is not listed. -/
@[simp] theorem Memory.lookup_erase_same (n : Nat) (m : Memory) : (m.erase n).lookup n = none := by
  induction m with
  | nil => rfl
  | cons c cs ih =>
    obtain ⟨k, w⟩ := c
    by_cases hk : k = n
    · simp [Memory.erase, hk, ih]
    · have hb : (n == k) = false := by simpa using Ne.symm hk
      simp [Memory.erase, hk, List.lookup, hb, ih]

@[simp] theorem Memory.lookup_erase_other (n k : Nat) (m : Memory) (h : k ≠ n) :
    (m.erase n).lookup k = m.lookup k := by
  induction m with
  | nil => rfl
  | cons c cs ih =>
    obtain ⟨j, w⟩ := c
    by_cases hj : j = n
    · have hb : (k == j) = false := by simpa [hj] using h
      simp only [Memory.erase, hj, if_true, ih, List.lookup]
      simp [hj ▸ hb]
    · simp only [Memory.erase, hj, if_false, List.lookup, ih]

theorem Memory.lookup_insert_same (n : Nat) (w : StoredWord) (m : Memory) (h : m.lookup n = none) :
    (m.insert n w).lookup n = some w := by
  induction m with
  | nil => simp [Memory.insert]
  | cons c cs ih =>
    obtain ⟨k, v⟩ := c
    by_cases hk : n < k
    · simp [Memory.insert, hk]
    · have hne : n ≠ k := by
        rintro rfl
        simp [List.lookup] at h
      have hb : (n == k) = false := by simpa using hne
      simp only [List.lookup, hb] at h
      simp [Memory.insert, hk, List.lookup, hb, ih h]

@[simp] theorem Memory.lookup_insert_other (n k : Nat) (w : StoredWord) (m : Memory) (h : k ≠ n) :
    (m.insert n w).lookup k = m.lookup k := by
  induction m with
  | nil =>
    have hb : (k == n) = false := by simpa using h
    simp [Memory.insert, List.lookup, hb]
  | cons c cs ih =>
    obtain ⟨j, v⟩ := c
    by_cases hj : n < j
    · have hb : (k == n) = false := by simpa using h
      simp [Memory.insert, hj, List.lookup, hb]
    · simp only [Memory.insert, hj, if_false, List.lookup, ih]

/-- A write keeps the canonical form. -/
theorem Memory.wf_write (m : Memory) (n : Nat) (w : StoredWord) (hn : n < Config.storeWords)
    (hm : m.wf = true) : (m.write n w).wf = true := by
  unfold Memory.write
  split
  · exact Memory.wfFrom_erase 0 n m hm
  · rename_i hw
    exact Memory.wfFrom_insert 0 n w _ (Memory.wfFrom_erase 0 n m hm) (Nat.zero_le n) hn hw
      (Memory.lookup_erase_same n m)

/-- Writing words of an entry keeps the canonical form. -/
theorem Memory.wf_writeEntry (m : Memory) (t : Table) (i : Nat) (ws : List (Nat × StoredWord))
    (hw : ∀ w ∈ ws, wordNumber t i w.1 < Config.storeWords) (hm : m.wf = true) :
    (m.writeEntry t i ws).wf = true := by
  induction ws generalizing m with
  | nil => exact hm
  | cons c cs ih =>
    exact ih _ (fun w h => hw w (List.mem_cons_of_mem _ h))
      (Memory.wf_write m _ _ (hw c List.mem_cons_self) hm)

/-- A word just written reads as written. -/
@[simp] theorem Memory.read_write_same (m : Memory) (n : Nat) (w : StoredWord) :
    (m.write n w).read n = w := by
  unfold Memory.write Memory.read
  split
  · rename_i h
    simp [h]
  · simp [Memory.lookup_insert_same]

/-- Every other word reads as before. -/
@[simp] theorem Memory.read_write_other (m : Memory) (n k : Nat) (w : StoredWord) (h : k ≠ n) :
    (m.write n w).read k = m.read k := by
  unfold Memory.write Memory.read
  split <;> simp [h]

/-- A word that no part of the write names reads as before. -/
theorem Memory.read_writeEntry_other (m : Memory) (t : Table) (i k : Nat) (ws : List (Nat × StoredWord))
    (h : ∀ w ∈ ws, wordNumber t i w.1 ≠ k) : (m.writeEntry t i ws).read k = m.read k := by
  induction ws generalizing m with
  | nil => rfl
  | cons c cs ih =>
    rw [Memory.writeEntry, ih _ fun w hw => h w (List.mem_cons_of_mem _ hw)]
    exact Memory.read_write_other m _ k _ (Ne.symm (h c List.mem_cons_self))

/-- The words of an entry of a table lie in the store (R174). -/
theorem wordNumber_lt (t : Table) (i w : Nat) (hi : i < t.entries) (hw : w < t.words) :
    wordNumber t i w < Config.storeWords := by
  cases t <;> simp_all [wordNumber, Table.entries, Table.words, Table.first, Config.storeWords] <;> omega

/-- Nothing is listed at power-on. -/
@[simp] theorem Memory.wf_nil : Memory.wf [] = true := rfl

@[simp] theorem Memory.read_nil (n : Nat) : Memory.read [] n = powerOnWord n := rfl

end Sys2Proof.Machine
end

