-- ==== Sys2Proof/Laws/Settings.lean ====
section
/-! SUPPORT. The settings values that a read gives, and those that stand in for an unusable entry, lie within the
bits of their fields (R174, R175). -/

namespace Sys2Proof.Laws

open Machine

/-- Every settings entry, whatever its words, reads as values within its fields. -/
theorem entryFields_withinSettings (words : List (BitVec 32)) :
    WithinSettings (entryFields .settings words) := by
  intro p f h
  have hv : valueAt (entryFields .settings words) p =
      (joinWords words / 2 ^ f.off % 2 ^ f.width : Nat) + f.low := by
    simp [valueAt, entryFields, unpackFields, layout, List.getD_eq_getElem?_getD, h]
  have hlt : joinWords words / 2 ^ f.off % 2 ^ f.width < 2 ^ f.width :=
    Nat.mod_lt _ (Nat.two_pow_pos _)
  have hcast : ((joinWords words / 2 ^ f.off % 2 ^ f.width : Nat) : Int) < 2 ^ f.width := by
    exact_mod_cast hlt
  rw [hv]
  omega

/-- The default settings lie within their fields. -/
theorem defaultFields_withinSettings : WithinSettings (defaultFields .settings) := by
  have all : ∀ p < 46, ∀ f ∈ settingsLayout[p]?, f.low ≤ valueAt (defaultFields .settings) p ∧
      valueAt (defaultFields .settings) p < f.low + 2 ^ f.width := by decide +kernel
  intro p f h
  exact all p (List.getElem?_eq_some_iff.mp h).1 f h

end Sys2Proof.Laws
end

