-- ==== Sys2Proof/Laws/Stops.lean ====
section
/-! SUPPORT. What a stop comes to: an entry into IDLE, HALTED, SAFE or DOCKED, said once (R13), and what the end
of an event leaves of it. -/

namespace Sys2Proof.Machine

/-! ### The nodes -/

/-- An exchange dropped leaves the rest of the record. -/
@[simp] theorem Node.dropExchange_keeps (d : Node) :
    d.dropExchange.standing = d.standing ∧ d.dropExchange.slot = d.slot ∧
    d.dropExchange.reportOwed = d.reportOwed ∧ d.dropExchange.grant = d.grant ∧
    d.dropExchange.statusWanted = d.statusWanted ∧ d.dropExchange.lastPayload = d.lastPayload ∧
    d.dropExchange.inHand = none := ⟨rfl, rfl, rfl, rfl, rfl, rfl, rfl⟩

@[simp] theorem Node.endExchange_keeps (d : Node) :
    d.endExchange.standing = d.standing ∧ d.endExchange.slot = d.slot ∧
    d.endExchange.reportOwed = d.reportOwed ∧ d.endExchange.grant = d.grant ∧
    d.endExchange.hold = d.hold ∧ d.endExchange.lastPayload = d.lastPayload ∧
    d.endExchange.inHand = none := ⟨rfl, rfl, rfl, rfl, rfl, rfl, rfl⟩

@[simp] theorem Node.offerHeld_keeps (d : Node) :
    d.offerHeld.standing = d.standing ∧ d.offerHeld.slot = d.slot ∧
    d.offerHeld.suspended = d.suspended ∧ d.offerHeld.superseded = d.superseded ∧
    d.offerHeld.hold = d.hold ∧ d.offerHeld.lastPayload = d.lastPayload := ⟨rfl, rfl, rfl, rfl, rfl, rfl⟩

@[simp] theorem Node.stopExchange_keeps (d : Node) (w : Bool) :
    (d.stopExchange w).standing = d.standing ∧ (d.stopExchange w).slot = d.slot ∧
    (d.stopExchange w).lastPayload = d.lastPayload := by
  unfold Node.stopExchange
  (repeat' split) <;> simp

@[simp] theorem Node.startFromSlot_keeps (d : Node) (b : Bool) :
    (d.startFromSlot b).standing = d.standing ∧ (d.startFromSlot b).hold = d.hold ∧
    (d.startFromSlot b).lastPayload = d.lastPayload ∧ (d.startFromSlot b).grant = d.grant := by
  unfold Node.startFromSlot
  (repeat' split) <;> simp

/-- A node is stopping: a stop stands in its slot or is its exchange in hand. -/
def Node.stopping (d : Node) : Prop := d.slot.stop = true ∨ d.inHand.map (·.transfer.isStop) = some true

theorem stopAsked_iff (t : State) (n : Fin 3) : StopAsked t n ↔ (t.part.node n).stopping := Iff.rfl

/-- The front of a slot that holds a stop is the stop. -/
theorem Node.startFromSlot_stopping (d : Node) (b : Bool) (h : d.stopping) (hi : d.inHand = none) :
    (d.startFromSlot b).stopping := by
  rcases h with h | h
  · unfold Node.startFromSlot
    simp only [h, if_true]
    right
    cases b <;> rfl
  · simp [hi] at h

/-! ### Changes of one record leave the standings, and the stops -/

/-- A change of one record that keeps its standing keeps every standing. -/
theorem Part.standing_mapNode (n m : Fin 3) (f : Node → Node) (p : Part)
    (h : ∀ d, (f d).standing = d.standing) :
    ((p.mapNode n f).node m).standing = (p.node m).standing := by
  by_cases hm : m = n
  · subst hm
    simp [h]
  · simp [hm]

/-- A change of one record that keeps a stop keeps every stop. -/
theorem Part.stopping_mapNode (n m : Fin 3) (f : Node → Node) (p : Part)
    (h : ∀ d : Node, d.stopping → (f d).stopping) (hs : (p.node m).stopping) :
    ((p.mapNode n f).node m).stopping := by
  by_cases hm : m = n
  · subst hm
    simpa using h _ hs
  · simpa [hm] using hs

/-- The nodes are those of another part: every record is. -/
theorem Part.node_of_nodes (p q : Part) (h : p.dbm.nodes = q.dbm.nodes) (n : Fin 3) : p.node n = q.node n := by
  simp [Part.node, h]

/-- A stop stays asked, and a standing as it is, where an operation changes the records so. -/
structure Part.KeepsStops (p q : Part) : Prop where
  standing : ∀ n, (q.node n).standing = (p.node n).standing
  stopping : ∀ n, (p.node n).stopping → (q.node n).stopping

theorem Part.KeepsStops.refl (p : Part) : p.KeepsStops p := ⟨fun _ => rfl, fun _ h => h⟩

theorem Part.KeepsStops.trans (p q r : Part) (h : p.KeepsStops q) (k : q.KeepsStops r) : p.KeepsStops r :=
  ⟨fun n => (k.standing n).trans (h.standing n), fun n hn => k.stopping n (h.stopping n hn)⟩

/-- An operation that leaves the records keeps the stops. -/
theorem Part.KeepsStops.of_nodes (p q : Part) (h : q.dbm.nodes = p.dbm.nodes) : p.KeepsStops q :=
  ⟨fun n => by rw [Part.node_of_nodes q p h], fun n hn => by rwa [Part.node_of_nodes q p h]⟩

/-- An operation behind a change that leaves the records. -/
theorem Part.KeepsStops.behind {q r : Part} (k : q.KeepsStops r) (p : Part)
    (h : q.dbm.nodes = p.dbm.nodes) : p.KeepsStops r :=
  (Part.KeepsStops.of_nodes p q h).trans p q r k

theorem Part.KeepsStops.mapNode (p q : Part) (n : Fin 3) (f : Node → Node)
    (hq : q.dbm.nodes = (p.mapNode n f).dbm.nodes)
    (h : (f (p.node n)).standing = (p.node n).standing)
    (hs : (p.node n).stopping → (f (p.node n)).stopping) : p.KeepsStops q := by
  refine ⟨fun m => ?_, fun m hm => ?_⟩
  · rw [Part.node_of_nodes q _ hq]
    by_cases e : m = n
    · subst e
      simpa using h
    · simp [e]
  · rw [Part.node_of_nodes q _ hq]
    by_cases e : m = n
    · subst e
      simpa using hs hm
    · simpa [e] using hm

theorem Part.askArm_stops (level : Nat) (p : Part) : p.KeepsStops (p.askArm level) := by
  unfold Part.askArm
  split
  · exact .refl p
  · exact .mapNode p _ 2 (fun d => { d with slot.arm := some level }) rfl rfl fun h => h

theorem Part.askStop_stops (n : Fin 3) (p : Part) : p.KeepsStops (p.askStop n) := by
  unfold Part.askStop
  split
  · exact .refl p
  · exact .mapNode p _ n
      (fun d => { d with slot.stop := true, slot.setpoint := none }.stopExchange (p.dbm.onWire n)) rfl
      (by simp) fun _ => .inl (by simp)

theorem Part.replaceArm_stops (p : Part) : p.KeepsStops p.replaceArm := by
  unfold Part.replaceArm
  split
  · exact .mapNode p _ 2 (fun d => { d with slot.arm := none }) (by simp) rfl fun h => h
  · exact .refl p

/-- A BLADE_STOP drops no stop: what it drops in hand is a guard read or a BLADE_STATUS (R124). -/
theorem Part.stopBladeExchange_stops (p : Part) : p.KeepsStops p.stopBladeExchange := by
  unfold Part.stopBladeExchange
  split
  · rename_i hi
    split
    · exact .refl p
    · refine .mapNode p _ 2 Node.dropExchange (by simp) rfl fun h => ?_
      rcases h with h | h
      · exact .inl h
      · simp [hi, Transfer.isStop] at h
  · rename_i hi
    split
    · exact .refl p
    · refine .mapNode p _ 2 (fun d => { d.dropExchange with statusWanted := true }) rfl rfl fun h => ?_
      rcases h with h | h
      · exact .inl h
      · simp [hi, Transfer.isStop] at h
  · exact .refl p

theorem Part.askBladeStop_stops (p : Part) : p.KeepsStops p.askBladeStop := by
  unfold Part.askBladeStop
  split
  · exact .refl p
  · refine ((Part.replaceArm_stops p).trans p _ _ (.mapNode p.replaceArm
      (p.replaceArm.mapNode 2 fun d => { d with slot.stop := true }) 2
      (fun d => { d with slot.stop := true }) rfl rfl fun _ => .inl rfl)).trans
      p _ _ ((Part.stopBladeExchange_stops _).trans _ _ _ (.of_nodes _ _ rfl))

/-- Deciding blade permission keeps the stops. -/
theorem Part.decideBlade_stops (p : Part) : p.KeepsStops p.decideBlade := by
  unfold Part.decideBlade
  dsimp only
  split
  · split
    · exact (Part.askArm_stops _ _).behind p rfl
    · exact .of_nodes p _ rfl
  · split
    · exact (Part.askBladeStop_stops _).behind p rfl
    · exact .of_nodes p _ rfl
  · split
    · exact (Part.askBladeStop_stops _).behind p rfl
    · split
      · exact (Part.askArm_stops _ _).behind p rfl
      · exact .of_nodes p _ rfl
  · exact .of_nodes p _ rfl

/-- The exchange of an offer taken from the slot is the stop, where a stop stands there (R122, R123). -/
theorem Part.takeOffer_stops (c : Nat) (n : Fin 3) (p : Part) : p.KeepsStops (p.takeOffer c n) := by
  unfold Part.takeOffer
  split
  · exact .mapNode p _ n (fun d => { d with grant := some (d.grant.getD {}) }) rfl rfl fun h => h
  · split
    · exact .refl p
    · rename_i hi
      have hn : (p.node n).inHand = none := by simpa using hi
      have hk : p.KeepsStops (p.mapNode n fun d => d.startFromSlot (n == 2)) :=
        .mapNode p _ n (fun d => d.startFromSlot (n == 2)) rfl (by simp) fun h => Node.startFromSlot_stopping _ _ h hn
      dsimp only
      split
      · exact hk.trans p _ _ (.of_nodes _ _ rfl)
      · exact hk

/-- What the arbiter may grant is offered (R125). -/
theorem Dbm.offers_of_grantable (d : Dbm) (c : Nat) (n : Fin 3) (h : d.grantable = some (c, n)) :
    d.offers n c = true := by
  unfold Dbm.grantable at h
  split at h
  · simp at h
  · split at h
    · rename_i ho
      simp only [Option.some.injEq, Prod.mk.injEq] at h
      obtain ⟨rfl, rfl⟩ := h
      exact ho
    · simp at h
  · have := List.find?_some h
    simp only [Bool.and_eq_true] at this
    exact this.1

/-- The bus arbiter keeps the stops: what it ends at the midpoint is a BLADE_RUN (R128). -/
theorem Part.grantFrom_stops (fuel : Nat) (p : Part) : p.KeepsStops (p.grantFrom fuel) := by
  induction fuel generalizing p with
  | zero => exact .refl p
  | succ fuel ih =>
    unfold Part.grantFrom
    split
    · exact .refl p
    · rename_i c n hg
      split
      · rename_i hc
        have ho := Dbm.offers_of_grantable _ _ _ hg
        rw [hc.1] at ho
        refine Part.KeepsStops.trans p _ _ ?_ (ih _)
        unfold Part.armAtMidpoint
        refine .mapNode p _ 2 Node.dropExchange (by simp) rfl fun h => ?_
        rcases h with h | h
        · exact .inl h
        · exfalso
          simp only [Dbm.offers, Bool.and_eq_true, beq_iff_eq] at ho
          have h2 := ho.2.2
          rw [ho.2.1.1] at h2
          change (match (p.node 2).inHand with
            | some e => !e.held && e.transfer.isRun
            | none => false) = true at h2
          cases hi : (p.node 2).inHand with
          | none => simp [hi] at h
          | some e =>
            rw [hi] at h h2
            cases ht : e.transfer <;> simp_all [Transfer.isRun, Transfer.isStop]
      · exact (Part.takeOffer_stops c n p).trans p _ _ (.of_nodes _ _ rfl)

theorem Part.grantBus_stops (p : Part) : p.KeepsStops p.grantBus := Part.grantFrom_stops 2 p

/-- What is decided at the end of an event keeps the stops. -/
theorem Part.conclude_stops (p : Part) : p.KeepsStops p.conclude := by
  have hpass : ∀ (b : Bool) (f : Part → Part) (q : Part), (∀ r : Part, r.KeepsStops (f r)) →
      q.KeepsStops (q.passIf b f) := by
    intro b f q h
    cases b
    · exact .refl q
    · exact h q
  unfold Part.conclude
  dsimp only
  refine Part.KeepsStops.trans _ _ _ ?_ (hpass _ _ _ Part.grantBus_stops)
  refine Part.KeepsStops.trans _ _ _ ?_ (hpass _ _ _ fun r => .of_nodes r _ (by simp))
  refine Part.KeepsStops.trans _ _ _ ?_ (hpass _ _ _ Part.decideBlade_stops)
  refine Part.KeepsStops.trans _ _ _ ?_ (hpass _ _ _ fun r => .of_nodes r _ (by simp))
  exact hpass _ _ p fun r => .of_nodes r _ (by simp)

/-! ### The motion passes where nothing moves -/

/-- With no response and no leg due, the passes that change modes and segments change neither: a
crossing may begin to be applied. -/
theorem Part.settleMotion_at_rest (p : Part) (ha : p.hre.active = none) (hd : p.rtu.planDue = false) :
    p.settleMotion.fcu = p.fcu ∧ p.settleMotion.hre = p.hre ∧ p.settleMotion.dbm = p.dbm ∧
    p.settleMotion.msh = p.msh ∧ p.settleMotion.sq.queue = p.sq.queue ∧
    p.settleMotion.sq.active = p.sq.active ∧ p.settleMotion.rtu.stack = p.rtu.stack ∧
    p.settleMotion.rtu.overflow = p.rtu.overflow ∧ p.settleMotion.rtu.leg = p.rtu.leg ∧
    p.settleMotion.rtu.planning = p.rtu.planning ∧ p.settleMotion.rtu.planDue = false ∧
    p.settleMotion.rtu.activity = p.rtu.activity ∧
    p.settleMotion.rtu.finalApproach = p.rtu.finalApproach ∧
    p.settleMotion.rtu.attempts = p.rtu.attempts ∧ p.settleMotion.rtu.settle = p.rtu.settle ∧
    (p.rtu.crossings = [] → p.settleMotion.rtu.crossings = []) := by
  have h1 : p.passIf p.agenda.deferral Part.deferralPass = p := by
    cases p.agenda.deferral
    · rfl
    · simp [Part.deferralPass, Part.deferralLifted, ha]
  have h2 : ∀ q : Part, q.fcu = p.fcu → q.rtu.planDue = false → q.beginPlanning = q := by
    intro q _ hq
    simp [Part.beginPlanning, hq]
  have h3 : ∀ b : Bool, p.passIf b Part.returnPass = p.passIf b Part.beginApplying := by
    intro b
    cases b
    · rfl
    · exact h2 p.beginApplying (by simp) (by
        unfold Part.beginApplying
        split <;> simp [hd])
  have happ : p.beginApplying.fcu = p.fcu ∧ p.beginApplying.hre = p.hre ∧ p.beginApplying.dbm = p.dbm ∧
      p.beginApplying.msh = p.msh ∧ p.beginApplying.sq = p.sq ∧
      p.beginApplying.rtu.stack = p.rtu.stack ∧ p.beginApplying.rtu.overflow = p.rtu.overflow ∧
      p.beginApplying.rtu.leg = p.rtu.leg ∧ p.beginApplying.rtu.planning = p.rtu.planning ∧
      p.beginApplying.rtu.planDue = false ∧ p.beginApplying.rtu.activity = p.rtu.activity ∧
      p.beginApplying.rtu.finalApproach = p.rtu.finalApproach ∧
      p.beginApplying.rtu.attempts = p.rtu.attempts ∧ p.beginApplying.rtu.settle = p.rtu.settle ∧
      (p.rtu.crossings = [] → p.beginApplying.rtu.crossings = []) := by
    unfold Part.beginApplying
    split <;> simp_all
  unfold Part.settleMotion
  simp only [h1, h3]
  have hq : ∀ b : Bool, ∀ q, q = p.passIf b Part.beginApplying →
      q.fcu = p.fcu ∧ q.hre = p.hre ∧ q.dbm = p.dbm ∧ q.msh = p.msh ∧ q.sq = p.sq ∧
      q.rtu.stack = p.rtu.stack ∧ q.rtu.overflow = p.rtu.overflow ∧ q.rtu.leg = p.rtu.leg ∧
      q.rtu.planning = p.rtu.planning ∧ q.rtu.planDue = false ∧ q.rtu.activity = p.rtu.activity ∧
      q.rtu.finalApproach = p.rtu.finalApproach ∧ q.rtu.attempts = p.rtu.attempts ∧
      q.rtu.settle = p.rtu.settle ∧ (p.rtu.crossings = [] → q.rtu.crossings = []) := by
    rintro b q rfl
    cases b
    · exact ⟨rfl, rfl, rfl, rfl, rfl, rfl, rfl, rfl, rfl, hd, rfl, rfl, rfl, rfl, id⟩
    · exact happ
  have hq' := hq p.agenda.returning _ rfl
  refine ⟨hq'.1, hq'.2.1, hq'.2.2.1, hq'.2.2.2.1, ?_, ?_, ?_⟩
  · rw [hq'.2.2.2.2.1]
  · rw [hq'.2.2.2.2.1]
  · exact hq'.2.2.2.2.2

/-- With blade permission no, and a mode that does not move, the decision finds it no. -/
theorem Part.decideBlade_at_rest (p : Part) (hm : p.fcu.mode.moving = false) :
    p.decideBlade.fcu.permission = false := by
  have hb : p.bladePermitted = false := by
    have : p.fcu.planned = false := by
      cases h : p.fcu.mode <;> simp_all [Fcu.planned, Mode.moving]
    simp [Part.bladePermitted, this]
  unfold Part.decideBlade
  simp only [hb]
  (repeat' split) <;> simp

/-! ### An entry into IDLE, HALTED, SAFE or DOCKED (R13) -/

/-- A flush leaves no record (R82). -/
theorem Part.flush_queue (p : Part) : p.flush.sq.queue = [] := by
  have hend : ∀ (e : Ending) (d : Nat) (q : Part), (q.endHead e d).sq.queue = q.sq.queue.tail := by
    intro e d q
    unfold Part.endHead
    split <;> simp_all
  have hall : ∀ (n : Nat) (q : Part), q.sq.queue.length ≤ n → (Part.abandonAll n q).sq.queue = [] := by
    intro n
    induction n with
    | zero => intro q h; simpa [Part.abandonAll] using h
    | succ n ih =>
      intro q h
      unfold Part.abandonAll
      exact ih _ (by rw [hend]; simp; omega)
  unfold Part.flush
  exact hall _ _ (Nat.le_refl _)

/-- The clearing of the responses leaves none (R149). -/
theorem Part.clearResponses_hre (p : Part) :
    p.clearResponses.hre.active = none ∧ p.clearResponses.hre.pending = none := by
  unfold Part.clearResponses
  have h1 : p.endActive.hre.active = none := by
    unfold Part.endActive
    split <;> simp_all
  refine ⟨?_, ?_⟩
  · rw [← h1]
    unfold Part.dropPending
    split <;> simp
  · unfold Part.dropPending
    split <;> simp_all

/-- The stops of R13: a stop is asked of every node that is not LOST. -/
theorem Part.stopMotion_stops (p : Part) (n : Fin 3) (h : (p.node n).standing ≠ .lost) :
    (p.stopMotion.node n).stopping := by
  unfold Part.stopMotion
  generalize hq : ({ { p with msh := p.msh.stop, fcu.permission := false } with agenda.blade := true } : Part) = q
  have hqn : q.dbm.nodes = p.dbm.nodes := by rw [← hq]
  have hs : ∀ (m : Fin 3) (r : Part), (r.node m).standing ≠ .lost → ((r.askStop m).node m).stopping := by
    intro m r hr
    have hl : (r.node m).isLost = false := by simpa [Node.isLost] using hr
    unfold Part.askStop
    simp only [hl, Bool.false_eq_true, if_false]
    left
    change ((r.mapNode m fun d =>
      { d with slot.stop := true, slot.setpoint := none }.stopExchange (r.dbm.onWire m)).node m).slot.stop = true
    simp
  have hbs : ∀ r : Part, (r.node 2).standing ≠ .lost → (r.askBladeStop.node 2).stopping := by
    intro r hr
    have hl : (r.node 2).isLost = false := by simpa [Node.isLost] using hr
    unfold Part.askBladeStop
    simp only [hl, Bool.false_eq_true, if_false]
    refine ((Part.stopBladeExchange_stops _).trans _ _ _ (.of_nodes _ (Part.markBus _) rfl)).stopping 2 ?_
    left
    simp
  have k0 := Part.askStop_stops 0 q
  have k1 := Part.askStop_stops 1 (q.askStop 0)
  have k2 := Part.askBladeStop_stops ((q.askStop 0).askStop 1)
  have hst : ∀ m, (q.node m).standing = (p.node m).standing := fun m => by
    rw [Part.node_of_nodes q p hqn]
  match n with
  | 0 => exact k2.stopping 0 (k1.stopping 0 (hs 0 q (by rw [hst]; exact h)))
  | 1 => exact k2.stopping 1 (hs 1 _ (by rw [k0.standing, hst]; exact h))
  | 2 => exact hbs _ (by rw [k1.standing, k0.standing, hst]; exact h)

/-- Everything an entry into IDLE, HALTED, SAFE or DOCKED does (R2, R13, R83, R149, R167, R171). -/
theorem Part.enterStop_sets (m : Mode) (cause : Option StopCause) (flush : Bool) (p : Part) :
    (p.enterStop m cause flush).fcu.mode = m ∧ (p.enterStop m cause flush).fcu.resume = none ∧
    (p.enterStop m cause flush).fcu.stopCause = cause.getD p.fcu.stopCause ∧
    (p.enterStop m cause flush).fcu.permission = false ∧
    (p.enterStop m cause flush).hre.active = none ∧ (p.enterStop m cause flush).hre.pending = none ∧
    (p.enterStop m cause flush).rtu.leg = none ∧ (p.enterStop m cause flush).rtu.planning = none ∧
    (p.enterStop m cause flush).rtu.planDue = false ∧
    (p.enterStop m cause flush).rtu.activity = .none ∧
    (p.enterStop m cause flush).rtu.finalApproach = false ∧
    (p.enterStop m cause flush).msh.previousLeft = 0 ∧
    (p.enterStop m cause flush).msh.previousRight = 0 ∧
    (flush = true → (p.enterStop m cause flush).sq.queue = []) ∧
    (flush = false → (p.enterStop m cause flush).sq = p.sq) ∧
    (m ≠ .docked → (p.enterStop m cause flush).rtu.stack = p.rtu.stack ∧
      (p.enterStop m cause flush).rtu.overflow = p.rtu.overflow ∧
      (p.enterStop m cause flush).rtu.crossings = p.rtu.crossings ∧
      (p.enterStop m cause flush).rtu.attempts = p.rtu.attempts) ∧
    (m = .docked → (p.enterStop m cause flush).rtu.stack = [] ∧
      (p.enterStop m cause flush).rtu.overflow = false ∧
      (p.enterStop m cause flush).rtu.crossings = [] ∧
      (p.enterStop m cause flush).rtu.attempts = 0 ∧ (p.enterStop m cause flush).rtu.settle = 0) ∧
    ∀ n, (p.node n).standing ≠ .lost → ((p.enterStop m cause flush).node n).stopping := by
  have hclear : ∀ q : Part, q.clearResponses.hre.active = none ∧ q.clearResponses.hre.pending = none :=
    Part.clearResponses_hre
  have hset : ∀ (q : Part) (r : Option Resume), (q.setMode m r).fcu.mode = m ∧
      (q.setMode m r).fcu.resume = r := by
    intro q r
    unfold Part.setMode
    dsimp only
    split <;> simp_all
  have hmsh : ∀ q : Part, q.stopMotion.msh.previousLeft = 0 ∧ q.stopMotion.msh.previousRight = 0 ∧
      q.stopMotion.fcu.permission = false := by
    intro q
    simp [Part.stopMotion]
  generalize hr : p.enterStop m cause flush = r
  unfold Part.enterStop at hr
  dsimp only at hr
  have hn : ∀ n, (p.node n).standing ≠ .lost → (r.node n).stopping := by
    intro n h
    rw [← hr]
    have : ∀ q : Part, ((if flush = true then q.flush else q).clearResponses).dbm.nodes = q.dbm.nodes := by
      intro q
      split <;> simp
    rw [Part.node_of_nodes _ _ (this _)]
    apply Part.stopMotion_stops
    rw [Part.node_of_nodes _ p (by split <;> simp)]
    exact h
  rw [← hr]
  refine ⟨?_, ?_, ?_, ?_, (hclear _).1, (hclear _).2, ?_, ?_, ?_, ?_, ?_, ?_, ?_, ?_, ?_, ?_, ?_, ?_⟩
  · (repeat' split) <;> simp [hset]
  · (repeat' split) <;> simp [hset]
  · (repeat' split) <;> simp
  · (repeat' split) <;> simp [hmsh]
  · (repeat' split) <;> simp [Part.dropDocking, Part.dropHoming, Rtu.docked, Part.markMotion]
  · (repeat' split) <;> simp [Part.dropDocking, Part.dropHoming, Rtu.docked, Part.markMotion]
  · (repeat' split) <;> simp [Part.dropDocking, Part.dropHoming, Rtu.docked, Part.markMotion]
  · (repeat' split) <;> simp [Part.dropDocking, Rtu.docked, Part.markMotion]
  · (repeat' split) <;> simp [Part.dropDocking, Rtu.docked, Part.markMotion]
  · (repeat' split) <;> simp [hmsh]
  · (repeat' split) <;> simp [hmsh]
  · intro hf
    simp [hf, Part.flush_queue]
  · intro hf
    simp only [hf, Bool.false_eq_true, if_false]
    split <;> simp
  · intro hd
    simp only [hd, if_false]
    split <;> simp
  · intro hd
    simp only [hd, if_true]
    split <;> simp
  · intro n h
    rw [hr]
    exact hn n h

/-- What follows an effect at rest: the mode, the responses, the drive bus, the Return Unit and the shaper's previous
setpoints stand. -/
theorem Part.settle_at_rest (p : Part) (ha : p.hre.active = none) (hd : p.rtu.planDue = false) :
    p.settle.fcu = p.fcu ∧ p.settle.dbm = p.dbm ∧ p.settle.hre.active = none ∧
    p.settle.hre.pending = p.hre.pending ∧ p.settle.sq.queue = p.sq.queue ∧
    p.settle.rtu.stack = p.rtu.stack ∧ p.settle.rtu.overflow = p.rtu.overflow ∧
    p.settle.rtu.leg = p.rtu.leg ∧ p.settle.rtu.planning = p.rtu.planning ∧
    p.settle.rtu.activity = p.rtu.activity ∧ p.settle.rtu.finalApproach = p.rtu.finalApproach ∧
    p.settle.rtu.attempts = p.rtu.attempts ∧ p.settle.rtu.settle = p.rtu.settle ∧
    (p.rtu.crossings = [] → p.settle.rtu.crossings = []) ∧
    p.settle.msh.previousLeft = p.msh.previousLeft ∧ p.settle.msh.previousRight = p.msh.previousRight := by
  obtain ⟨h1, h2, h3, h4, h5, h6, h7, h8, h9, h10, h11, h12, h13, h14, h15, h16⟩ :=
    Part.settleMotion_at_rest p ha hd
  unfold Part.settle
  refine ⟨?_, ?_, ?_, ?_, ?_, ?_, ?_, ?_, ?_, ?_, ?_, ?_, ?_, ?_, ?_, ?_⟩
  all_goals first
    | simp [h1, h2, h3, h4, h5, h7, h8, h9, h10, h12, h13, h14, h15, ha]
    | skip
  simpa using h16

/-- The end of an event in a mode that does not move: permission stays no. -/
theorem Part.conclude_at_rest (p : Part) (hm : p.fcu.mode.moving = false) (hp : p.fcu.permission = false) :
    p.conclude.fcu.permission = false := by
  have hq : ∀ (b : Bool) (f : Part → Part) (q : Part), (∀ r : Part, (f r).fcu.permission = r.fcu.permission) →
      (q.passIf b f).fcu.permission = q.fcu.permission := by
    intro b f q h
    cases b
    · rfl
    · exact h q
  have hmode : ∀ (b : Bool) (f : Part → Part) (q : Part), (∀ r : Part, (f r).fcu.mode = r.fcu.mode) →
      (q.passIf b f).fcu.mode = q.fcu.mode := by
    intro b f q h
    cases b
    · rfl
    · exact h q
  unfold Part.conclude
  dsimp only
  rw [hq _ _ _ (by simp), hq _ _ _ (by simp)]
  generalize hr : Part.passIf _ Part.starvedTest _ = r
  have hrm : r.fcu.mode = p.fcu.mode := by
    rw [← hr, hmode _ _ _ (by simp), hmode _ _ _ (by simp)]
  cases r.agenda.blade
  · rw [Part.passIf_false, ← hr, hq _ _ _ (by simp), hq _ _ _ (by simp), hp]
  · exact Part.decideBlade_at_rest r (by rw [hrm]; exact hm)

end Sys2Proof.Machine
end

