-- ==== Sys2Proof/WellFormed.lean ====
section
/-! DEFINITION. Which commands the ports can carry: the lengths that section 10.5, R71 and R191 give. -/

namespace Sys2Proof

/-- A command that a port can carry.
A PLAN_APPEND body of 1 + 18 × count bytes fits a frame of at most 250 body bytes (R191, R194); the
value blocks have the lengths of R195; SYNC_HUNT is about a length byte above 250 (R191); a coil frame
that the length check of R133 finds right carries 32 samples per coil. -/
def Instr.wf : Instr → Bool
  | .planAppend _ segments => segments.length ≤ 13
  | .tableWriteLoopCode _ _ _ block => block.length == 46
  | .tableWriteRule _ _ _ block => block.length == 24
  | .tableWriteZone _ _ _ block => block.length == 22
  | .tableWritePassage _ _ _ block => block.length == 16
  | .tableWriteSettings _ _ _ block => block.length == 92
  | .syncHunt length => 250 < length.toNat
  | .coilFrame head _ left right =>
    !head.lengthOk || (left.length == 32 && right.length == 32)
  | .powerOn | .resetLine | .plannerFrame _ | .keep _ | .status _ | .modeRun _ | .modeIdle _
  | .modeHome _ | .modeClear _ | .planFlush _ | .tableRead .. | .storeModeSet .. | .testPatternSet ..
  | .clearLog _ | .collect .. | .restart _ | .frameSent | .bumperFrame .. | .attitudeFrame ..
  | .rangeFrame .. | .environmentFrame .. | .sensorStale _ | .keepTimerExpiry | .shaperPeriod
  | .responseHoldExpiry | .nodeAnswer _ | .responseTimeout | .readySignal _ | .holdLimitExpiry _
  | .entryReadDone | .fullEntryWriteDone | .partialWriteDone | .scrubExpiry | .scrubAccessDone
  | .noticeHoldExpiry _ | .noticeQuietExpiry _ => true

end Sys2Proof
end

