-- ==== Sys2Proof/Tests/Slice0.lean ====
section
/-! SUPPORT. Small checks: ill-formed commands, computations of the spec's worked examples, single steps, and for
every statement with hypotheses a state and operands that meet them. -/

section

open Sys2Proof Sys2Proof.Machine

/-! ### Helpers -/

/-- Right after power-on, with another part. -/
def testState (f : Part → Part) : State := { State.reset with part := f State.reset.part }

/-- Right after power-on, in another mode. -/
def testMode (m : Mode) : State := testState fun p => { p with fcu.mode := m }

/-- Right after power-on, with another frame at the front of the transmit list and request in the buffer. -/
def testLink (tx : List TxFrame) (rx : List RxFrame) : State :=
  testState fun p => { p with plp.tx := tx, plp.rx := rx }

/-- Right after power-on, with an access granted. -/
def testAccess (owner : Owner) (kind : AccessKind) (reader : Reader) (f : Part → Part) : State :=
  testState fun p => { f p with tst.current := some ⟨⟨owner, kind, reader⟩, .normal, false⟩ }

def testRequestFrame : RxFrame := ⟨0, 7, [], .inHand⟩

def testHead (node : Nat) : SenseHead := ⟨true, node, true⟩

def testSegment : SegmentBody :=
  { id := 1, kind := 0, speed := 300, length := 1000, ratio := 0, turnSide := 0, followLoop := 0,
    interior := 0, target := 0, bladeLevel := 1, endType := 0, endSubject := 0, holdThrough := 0 }

/-- A valid zone entry whose pattern is all ANY, with blade maximum 2, and a HALT rule of BUMP_C, as values of
their entries. -/
def testZoneFields : List Int := [1, 0, 500, 2, 100, 200, 3, 32]

def testRuleFields : List Int := [1, 1, 4, 0, 33554431, 255, 0, 5, 0, 4, 0, 0, 0, 0, 0]

/-- A node's answer to the first try, which is on the wire after reset to node 0. -/
def testAnswer (node : Fin 3) (signals : Signals) : NodeAnswer :=
  ⟨node, 1, true, signals, ⟨false, false, false, false⟩, 7, 0, true, .none, 0⟩

def testAccept : Signals := ⟨true, false, false, false⟩

def testReject : Signals := ⟨false, false, false, true⟩

def testHold : Signals := ⟨false, true, false, false⟩

def testYield : Signals := ⟨false, false, true, false⟩

/-- A try on the wire to a node with an exchange, or a report grant, in hand. -/
def testWire (node : Fin 3) (grant : Bool) (d : Node) (f : Part → Part) : State :=
  testState fun p => { f p with
    dbm.bus := .wire node grant 1 2
    dbm.nodes := p.dbm.nodes.set node d }

/-- A segment in force in RUN on a blade level, in a zone that permits it. -/
def testPermitted (p : Part) : Part :=
  { p with
    fcu.mode := .run
    fcu.zoneBladeMax := 2
    ltr.zone := some 3
    sq.queue := [testSegment.record]
    sq.active := true }

/-- A rule's response in force. -/
def testActive (action : Action) (hold : Nat) : Active :=
  ⟨{ builtinResponse with action := action, rule := some 9, level := 3, unconditional := false }, some hold,
   false, 0, 0⟩

/-- A table memory with one entry written. -/
def testMemory (t : Table) (i : Nat) (fields : List Int) : Memory :=
  Memory.writeEntry [] t i (fullWords {} .normal t fields)

/-- The part behind a command that completes. -/
def testAfter (i : Instr) (s : State) : Part :=
  match exec i s with
  | .next t => t.part
  | .fault _ | .refused _ => s.part

/-! ### Well-formed commands -/

theorem test_wf_append : Instr.wf (.planAppend 0 (List.replicate 14 testSegment)) = false := by decide

theorem test_wf_loop_code : Instr.wf (.tableWriteLoopCode 0 0 1 (List.replicate 45 0)) = false := by decide

theorem test_wf_rule : Instr.wf (.tableWriteRule 0 0 1 (List.replicate 25 0)) = false := by decide

theorem test_wf_zone : Instr.wf (.tableWriteZone 0 0 1 []) = false := by decide

theorem test_wf_passage : Instr.wf (.tableWritePassage 0 0 1 (List.replicate 22 0)) = false := by decide

theorem test_wf_settings : Instr.wf (.tableWriteSettings 0 0 1 (List.replicate 91 0)) = false := by decide

theorem test_wf_sync_hunt : Instr.wf (.syncHunt 250) = false := by decide

theorem test_wf_coil_frame : Instr.wf (.coilFrame (testHead 0) 0 [] []) = false := by decide

theorem test_wf_keep : Instr.wf (.keep 3) = true := by decide

/-! ### Computations of the spec's examples -/

/-- The examples of R100, cap 300. -/
theorem test_shift_clamp :
    shiftClamp 300 (454, 346) = (300, 192) ∧ shiftClamp 300 (900, 100) = (300, -300) ∧
    shiftClamp 300 (500, -500) = (300, -300) ∧ shiftClamp 300 (-400, -250) = (-300, -150) ∧
    shiftClamp 300 (200, 100) = (200, 100) := by decide

/-- The examples of R92: an ARC of ratio 128 at −401, and the magnitude of a SPIN's speed. -/
theorem test_targets :
    (Drive.arc (-401) 128 .left).targets 0 0 = (-201, -401) ∧
    (Drive.spin (-200) .left).targets 0 0 = (-200, 200) ∧
    (Drive.follow 300 0 .left 0).targets 300 54 = (246, 354) := by decide

/-- R54: half away from zero, and the clamp of an odd spacing. -/
theorem test_wire_offset :
    wireOffset 241 1000 1000 = 120 ∧ wireOffset 240 1000 (-1000) = 0 ∧
    wireOffset 240 (-1000) (-500) = -120 := by decide

/-- R32 and R33: the smallest of tied shifts, whatever the signs. -/
theorem test_peak :
    peakOf [0, -7000, 7000, 30] = ⟨1, -7000, 7000⟩ ∧ peakOf [0, 0, 0] = ⟨0, 0, 0⟩ := by decide

/-- R48: a side is taken when the candidate has been seen as often as the confirm count says. -/
theorem test_debounce :
    let c : CoilSide := { side := some .inside }
    (c.observe 2 .outside).side = some .inside ∧
    ((c.observe 2 .outside).observe 2 .outside).side = some .outside ∧
    ((c.observe 2 .outside).observe 2 .inside) = c := by decide

/-- R176: one flipped bit is corrected, and the columns begin 7, 11, 13. -/
theorem test_check_bits :
    generateCheck 1 = 7 ∧ generateCheck 2 = 11 ∧ generateCheck 4 = 13 ∧
    (StoredWord.mk 5 (generateCheck 4)).judge = .single 4 ∧
    (StoredWord.mk 4 (generateCheck 4 ^^^ 3)).judge = .uncorrectable := by decide

/-- R191: the CRC-16 of the digits 1 to 9 under these parameters, and a frame found behind bytes that are none. -/
theorem test_crc : crc16 [49, 50, 51, 52, 53, 54, 55, 56, 57] = 0x29B1 := by decide +kernel

theorem test_hunt :
    hunt 12 (1 :: 90 :: 251 :: frameBytes 2 9 [1]) = ([⟨2, 9, [1]⟩], []) := by decide +kernel

/-- R174: the fields of a zone entry come back from its words, and from the memory. -/
theorem test_entry_words :
    entryFields .zone (entryWords .zone testZoneFields) = testZoneFields ∧
    entryFields .rule (entryWords .rule testRuleFields) = testRuleFields := by decide +kernel

/-- R105 and R104: a plausible delta over the wrap of the count, and one that is not. -/
theorem test_ticks :
    (Wheel.convert { reference := some 65530 } 4 1000 20).distance = 10 ∧
    (Wheel.convert { reference := some 65530 } 4 1000 3).distance = 0 := by decide

/-! ### Single steps -/

/-- The opening of a run: KEEP from reset is answered behind the STARTED frame. -/
theorem test_keep :
    exec (.keep 7) State.reset =
      .next (testState fun p => { p with
        fcu.keepTimer := some 500
        plp.rx := [⟨0, 7, [], .answered⟩]
        plp.tx := [.started .powerOn, .answer 7 .ok []] }) := by
  have h : (State.event (Part.requestArrived 0 7 []) State.reset) =
      testState fun p => { p with
        fcu.keepTimer := some 500
        plp.rx := [⟨0, 7, [], .answered⟩]
        plp.tx := [.started .powerOn, .answer 7 .ok []] } := by decide +kernel
  exact congrArg _ h

/-- MODE IDLE in RUN: IDLE with stop cause COMMAND, and the answer carries the mode. -/
theorem test_mode_idle :
    let t := State.event (Part.requestArrived 2 7 [1]) (testMode .run)
    t.part.fcu.mode = .idle ∧ t.part.fcu.stopCause = .command ∧
    TxFrame.answer 7 .ok [0] ∈ t.part.plp.tx := by decide +kernel

/-- A rule that matches and takes with HALT brings RUN to HALTED with its index. -/
theorem test_halt_rule :
    let s := { testAccess .walk (.entryRead .rule 2) .ruleWalk fun p =>
        { p with fcu.mode := .run, hre.walk := some ⟨⟨.bumpC, 1, 1⟩, none, .run, 2⟩ } with
      mem := testMemory .rule 2 testRuleFields }
    let t := s.event (Part.completeRead ⟨⟨.walk, .entryRead .rule 2, .ruleWalk⟩, .normal, false⟩ .rule 2
      (s.mem.readEntry .rule 2))
    t.part.fcu.mode = .halted ∧ t.part.fcu.stopCause = .hazard 2 := by decide +kernel

/-- Two loops enter a CROSS state in one frame, and two segments in a row wait for them: the second has been
activated behind its loop's change of state, and waits on (R78). -/
theorem test_cross_meets_once :
    let g := fun k => { testSegment.record with length := 0, endCondition := some (.untilCross k) }
    let p := (testState fun p => { p with
      fcu.mode := .run
      sq.queue := [g 0, g 1]
      sq.active := true
      ltr.tracks.l0.combined := .crossLR
      ltr.tracks.l1.combined := .crossRL }).part
    let q := p.handOutAll p.awaitedLoop 5 State.reset.part.ltr.tracks loopIndices
    q.sq.queue = [g 1] ∧ q.sq.active = true := by decide +kernel

/-- The third silent try loses the node, and the part enters SAFE. -/
theorem test_node_lost :
    let s := testState fun p => { p with
      fcu.mode := .run
      dbm.nodes.n0.inHand := some { transfer := .setpoint 100 none, tries := 3 } }
    let t := s.event Part.responseTimedOut
    t.part.fcu.mode = .safe ∧ t.part.fcu.stopCause = .nodeLost ∧ (t.part.node 0).standing = .lost := by
  decide +kernel

/-! ### The hypotheses of the statements are met -/

theorem test_meets_idle_step :
    State.reset.pending = [] ∧ firstDue State.reset.part.expiries = none ∧
    firstDue (testState fun p => { p with msh.periodTimer := some 0 }).part.expiries =
      some .shaperPeriod := by decide

theorem test_meets_commands_complete :
    AccessInStore State.reset.part ∧
    exec .entryReadDone (testAccess .planner (.entryRead .zone 24) .plannerRead id) =
      .fault .noSuchWord := ⟨(by decide : 0 < Table.entries .settings), rfl⟩

/-- Nothing to act on: every timer stopped, nothing on the bus, no access, nothing to send; a full buffer. -/
theorem test_meets_nothing_to_act_on :
    let s := testState fun p => { p with
      dbm.bus := .free
      sin.timers := ⟨none, none, none, none, none⟩
      tst.current := none
      plp.tx := []
      plp.rx := List.replicate 4 testRequestFrame }
    s.part.agenda = {} ∧ s.part.fcu.keepTimer = none ∧ (∀ n, s.part.sin.timers.get n = none) ∧
    s.part.hre.active = none ∧ s.part.dbm.takes ⟨0, 1, true, ⟨true, false, false, false⟩,
      ⟨false, false, false, false⟩, 0, 0, false, .none, 0⟩ = none ∧ s.part.dbm.bus = .free ∧
    (∀ n, (s.part.node n).standing ≠ .holding) ∧ s.part.tst.current = none ∧
    s.part.tst.scrubTimer = none ∧ s.part.nco.classes.motion.holdTimer = none ∧
    s.part.nco.classes.store.quietTimer = none ∧ s.part.plp.tx = [] ∧ s.part.plp.hunt = [] ∧
    s.part.plp.rx.length = 4 ∧ 250 < (251 : Byte).toNat := by decide

theorem test_meets_power_on : ∃ t, exec .powerOn State.reset = .next t ∧ 0 < Table.entries .settings :=
  ⟨_, rfl, by decide⟩

theorem test_meets_restart :
    let s := testState fun p => { p with
      plp.restarting := true
      plp.rx := [⟨9, 7, [], .answered⟩]
      plp.tx := [.answer 7 .ok []] }
    s.part.plp.restarting = true ∧ s.part.plp.rx = [⟨9, 7, [], .answered⟩] ∧
    s.part.plp.tx = [.answer 7 .ok []] := by decide

/-- The port is ready after reset, and with three answered frames whose ANSWERs have not been sent. -/
theorem test_meets_port_ready :
    PortReady State.reset ∧
    PortReady (testLink [] (List.replicate 3 { testRequestFrame with status := .answered })) ∧
    PortReady (testMode .halted) ∧ (testState fun p => { p with fcu.keepSilent := true }).part.fcu.keepSilent := by
  unfold PortReady
  decide

theorem test_meets_collect :
    let s := testState fun p => { p with fcu.keepSilent := true }
    NoticeClass.ofCode 0 = some .motion ∧ NoticeClass.ofCode 2 = some .field ∧
    NoticeClass.ofCode 3 = some .store ∧ 3 < (4 : Byte).toNat ∧ PortReady s ∧ PortReady State.reset ∧
    s.part.fcu.keepSilent = true ∧ State.reset.part.fcu.keepSilent = false := by
  unfold PortReady
  decide

theorem test_meets_store_control :
    StoreMode.ofCode 2 = some .test ∧ (testMode .halted).part.fcu.mode.moving = false ∧
    StoreMode.ofCode 0 = some .normal ∧ (testMode .run).part.fcu.mode.moving = true ∧
    2 < (3 : Byte).toNat ∧ (127 : Byte).toNat ≤ 127 ∧ 127 < (128 : Byte).toNat ∧
    PortReady (testMode .run) := by
  unfold PortReady
  decide

theorem test_meets_frame_sent :
    let s := fun tx => testLink tx [{ testRequestFrame with status := .answered }]
    let due := testState fun p => { p with
      plp.tx := [.notice .store false []]
      nco.classes.store.due := true
      nco.classes.store.entries := [⟨.poisoned, 512, 1, 9⟩] }
    (∀ f ∈ (s []).part.plp.rx, f.status ≠ .waiting) ∧ (s []).part.agenda = {} ∧
    (s []).part.plp.restarting = false ∧
    (s [.answer 7 .ok []]).part.plp.tx = .answer 7 .ok [] :: [] ∧
    (s [.started .powerOn]).part.plp.tx = .started .powerOn :: [] ∧
    (s [.notice .store true []]).part.plp.tx = .notice .store true [] :: [] ∧
    ((s []).part.nco.classes.get .store).due = false ∧
    (due.part.nco.classes.get .store).due = true ∧ (due.part.nco.classes.get .store).entries ≠ [] ∧
    (∀ f ∈ due.part.plp.rx, f.status ≠ .waiting) := by decide

theorem test_meets_frame_bytes :
    (List.replicate 250 (90 : Byte)).length ≤ 250 ∧ State.reset.part.plp.hunt = [] := by decide +kernel

theorem test_meets_mode_requests :
    PortReady (testMode .run) ∧ PortReady (testMode .docked) ∧ PortReady (testMode .halted) ∧
    (testMode .run).part.fcu.mode ≠ .docked ∧ (testMode .safe).part.fcu.mode.moving = false ∧
    (testMode .docking).part.fcu.mode.moving = true ∧ (testMode .halted).part.fcu.mode = .halted := by
  unfold PortReady
  decide

theorem test_meets_entry_checks :
    let s := fun home f => { testAccess .planner (.entryRead .zone 23) .plannerRead fun p => f { p with
        plp.op := some (.entryCheck home (.dockZone 7))
        plp.rx := [testRequestFrame]
        ltr.tracks.l7.combined := .inside
        sq.queue := [testSegment.record] } with
      mem := testMemory .zone 23 testZoneFields }
    let run := s false id
    ReadGranted run .planner .zone 23 .plannerRead ∧ Sound run .zone 23 ∧
    (zoneEntryOf (storedFields run .zone 23)).valid = true ∧ run.part.plp.inHand = some testRequestFrame ∧
    run.part.tst.mode = .normal ∧ run.part.ltr.insideAt 7 = true ∧ run.part.fcu.mode = .idle ∧
    run.part.hre.active = none ∧ NoFrameWaits run ∧ run.part.sq.queue = testSegment.record :: [] ∧
    testSegment.record.length ≠ 0 ∧ (∀ q ∈ run.part.tst.waiting, q.owner ≠ .planner) ∧
    Sound (s true id) .zone 23 ∧ (s true id).part.plp.inHand = some testRequestFrame ∧
    (s true id).part.ltr.startZone = none ∧
    (s true fun p => { p with ltr.lastZone := some 4 }).part.ltr.startZone = some 4 ∧
    (s true id).part.rtu.crossings = [] ∧
    (s false fun p => { p with tst.mode := .test }).part.tst.mode ≠ .normal ∧
    (s false fun p => { p with ltr.tracks.l7.combined := .lost }).part.ltr.insideAt 7 = false ∧
    (s true fun p => { p with fcu.mode := .docked }).part.fcu.mode ≠ .idle ∧
    (s false fun p => { p with tst.poisoned := p.tst.poisoned.put .zone 23 true }).part.tst.poisoned.get
      .zone 23 = true := by
  unfold ReadGranted Sound NoFrameWaits
  decide +kernel

/-- The reads of the entry checks at their last index and before it, with what ends them. -/
theorem test_meets_entry_check_reads :
    let perimeter : List Int := [1, 0] ++ (defaultFields .loopCode).drop 2
    let s := fun tab i stage fields => { testAccess .planner (.entryRead tab i) .plannerRead fun p => { p with
        plp.op := some (.entryCheck false stage)
        plp.rx := [testRequestFrame] } with
      mem := testMemory tab i fields }
    let loop := s .loopCode 7 (.loops 7 []) perimeter
    let zone := s .zone 23 (.zones 23 7) (testZoneFields.set 0 0)
    let settings := fun dock => s .settings 0 (.settings 7) ((defaultFields .settings).set 22 dock)
    loop.part.plp.inHand = some testRequestFrame ∧ Sound loop .loopCode 7 ∧
    (loopEntryOf (storedFields loop .loopCode 7)).valid = true ∧
    (loopEntryOf (storedFields loop .loopCode 7)).role = .perimeter ∧
    (∃ w ∈ Memory.readEntry (Memory.write [] (wordNumber .loopCode 7 1) ⟨3, 0⟩) .loopCode 7,
      w.judge = .uncorrectable) ∧
    Sound zone .zone 23 ∧ (zoneEntryOf (storedFields zone .zone 23)).valid = false ∧
    Sound (settings 23) .settings 0 ∧ settingOf (storedFields (settings 23) .settings 0) 22 = 23 ∧
    settingOf (storedFields (settings 24) .settings 0) 22 = 24 ∧
    ((settings 0).part.tst.poisoned.put .settings 0 true).get .settings 0 = true := by
  unfold Sound
  decide +kernel

theorem test_meets_append_refused :
    (testMode .halted).part.fcu.takesAppend = false ∧ State.reset.part.fcu.takesAppend = true ∧
    (List.replicate 5 testSegment).length ≤ 13 ∧
    (let s := testState fun p => { p with sq.queue := List.replicate 29 testSegment.record }
     32 - s.part.sq.queue.length < (List.replicate 4 testSegment).length) ∧
    appendChecks 0 [testSegment, { testSegment with kind := 5 }] = [.fail 1] := by decide

theorem test_meets_append_placed :
    appendChecks 0 [testSegment] = [] ∧ State.reset.part.fcu.planned = false ∧
    (testState fun p => { p with fcu.mode := .run, sq.active := true }).part.sq.active = true ∧
    appendChecks 0 [{ testSegment with kind := 3, followLoop := 7 }] = [.loop 0 7] ∧
    appendChecks 0 [{ testSegment with endType := 2, endSubject := 23 }] = [.zone 0 23] ∧
    1 ≤ 32 - (testState fun p => { p with
      sq.queue := List.replicate 31 testSegment.record }).part.sq.queue.length := by decide

theorem test_meets_flush : PortReady State.reset ∧ State.reset.part.hre.pending = none := by
  unfold PortReady
  decide

theorem test_meets_write_refused :
    (List.replicate 22 (0 : Byte)).length = blockLength .zone ∧ maskOk .zone 256 = false ∧
    maskOk .zone 255 = true ∧ Table.entries .zone ≤ (24 : Byte).toNat ∧
    maskOk .settings 2 = true ∧ (0 : Byte).toNat < Table.entries .settings ∧
    namedInRange .settings 2 (carriedValues .settings (0 :: 0 :: 0 :: 2 :: List.replicate 88 0)) 1 = false ∧
    Table.isProtected .rule = true ∧ (testMode .run).part.fcu.mode.moving = true ∧
    WriteAdmitted State.reset .zone 23 128 (List.replicate 20 0 ++ [0, 33]) ∧
    writeChecks .zone 128 (List.replicate 20 0 ++ [0, 33]) = [.fail] := by
  unfold WriteAdmitted
  decide +kernel

theorem test_meets_write_goes_on :
    WriteAdmitted State.reset .zone 23 4 (List.replicate 22 0) ∧
    writeChecks .zone 4 (List.replicate 22 0) = [] ∧
    WriteAdmitted State.reset .zone 23 255 (valueBlock .zone testZoneFields) ∧
    (valueBlock .zone testZoneFields).length = blockLength .zone ∧
    writeChecks .zone 255 (valueBlock .zone testZoneFields) = [] ∧
    (255 : BitVec 64).toNat = 2 ^ Table.positions .zone - 1 ∧
    WriteAdmitted State.reset .passage 31 8 (0 :: 0 :: 0 :: 0 :: 0 :: 0 :: 0 :: 7 :: List.replicate 8 0) ∧
    writeChecks .passage 8 (0 :: 0 :: 0 :: 0 :: 0 :: 0 :: 0 :: 7 :: List.replicate 8 0) =
      [.loop 7 false] := by
  unfold WriteAdmitted
  decide +kernel

theorem test_meets_table_read :
    4 < (5 : Byte).toNat ∧ Table.ofCode 4 = some .settings ∧ Table.entries .settings ≤ (1 : Byte).toNat ∧
    Table.ofCode 3 = some .passage ∧ (31 : Byte).toNat < Table.entries .passage := by decide

theorem test_meets_sense_frames :
    let s := testState fun p => { p with
      sin.bumper := some ⟨true, false, true, 0⟩
      sin.attitude := some ⟨0, 0, true, 0⟩
      scr.processing := some ⟨⟨0, [], []⟩, []⟩ }
    NoFrameWaits State.reset ∧ Quiet State.reset ∧ (-900 : Int).natAbs ≤ 900 ∧ (901 : Int).natAbs > 900 ∧
    State.reset.part.sin.bumper.map (·.left) ≠ some true ∧
    State.reset.part.sin.attitude.map (·.lift) ≠ some true ∧
    NoFrameWaits s ∧ s.part.sin.bumper.map (·.left) = some true ∧
    s.part.sin.attitude.map (·.lift) = some true ∧
    State.reset.part.scr.processing = none ∧ s.part.scr.processing ≠ none := by
  unfold NoFrameWaits Quiet
  decide

theorem test_meets_contact :
    let s := testState fun p => { p with
      fcu.mode := .docking
      rtu.activity := .approach
      rtu.finalApproach := true
      rtu.settle := 2 }
    NoFrameWaits s ∧ s.part.rtu.params.threshold ≤ 20000 ∧ s.part.rtu.settle < 15 ∧
    s.part.rtu.params.settle = s.part.rtu.settle + 1 := by
  unfold NoFrameWaits
  decide

theorem test_meets_stale :
    (∀ n, State.reset.part.sin.timers.get n ≠ none) ∧
    (let s := testState fun p => { p with ltr.tracks.l0.tracked := true }
     (s.part.ltr.tracks.get 0).tracked = true ∧ (s.part.ltr.tracks.get 0).lost = false) := by decide

theorem test_meets_link_silence :
    let s := fun m a => testState fun p => { p with
      fcu.mode := m
      fcu.keepTimer := some 0
      fcu.silentAction := a
      ltr.zone := some 3 }
    (s .idle .halt).part.fcu.keepTimer ≠ none ∧ (s .idle .halt).part.fcu.mode.moving = false ∧
    (s .docking .halt).part.fcu.mode.moving = true ∧ NoFrameWaits (s .docking .halt) ∧
    (s .run .home).part.fcu.mode = .run ∧ (s .run .home).part.hre.active = none ∧
    (s .run .home).part.ltr.startZone = some 3 ∧ (s .run .home).part.rtu.crossings = [] ∧
    (s .run .home).part.rtu.applying = none ∧ (s .run .home).part.rtu.planning = none ∧
    NoFrameWaits (s .run .home) ∧ (s .run .home).part.hre.pending = none ∧
    State.reset.part.ltr.startZone = none ∧ (s .homing .home).part.fcu.mode = .homing ∧
    (s .docking .home).part.fcu.silentAction = .home ∧
    (let m := fun r a => testState fun p => { p with
       fcu.mode := .maneuver, fcu.resume := some r, fcu.keepTimer := some 0, fcu.silentAction := .home
       hre.active := some (testActive a 9) }
     NoFrameWaits (m .run .pause) ∧ (m .run .pause).part.fcu.mode = .maneuver ∧
     (m .run .pause).part.hre.active = some (testActive .pause 9) ∧
     (m .run .pause).part.hre.pending = none ∧ (m .docking .pause).part.fcu.resume = some .docking) := by
  unfold NoFrameWaits
  decide

/-- A period computation at its settings read and at its zone read, of the source as it stands, in a moving mode
and in none, with a zone entry that is sound or poisoned; none in progress; and one whose source has changed. -/
theorem test_meets_period :
    let c : Computation := ⟨none, true, false, .settings⟩
    let s := fun tab i stage zone poisoned => testAccess .shaper (.entryRead tab i) .shaper fun p => { p with
      fcu.mode := .run
      ltr.zone := zone
      tst.poisoned := p.tst.poisoned.put .zone 3 poisoned
      msh.computation := some { c with stage := stage } }
    let first := s .settings 0 .settings (some 3) false
    let second := s .zone 3 (.zone (defaultFields .settings)) (some 3) false
    (testMode .run).part.msh.computation = none ∧ (testMode .run).part.fcu.mode.moving = true ∧
    ReadGranted first .shaper .settings 0 .shaper ∧ Sound first .settings 0 ∧
    first.part.msh.computation = some c ∧ first.part.ltr.zone = some 3 ∧ NoFrameWaits first ∧
    (s .settings 0 .settings none false).part.ltr.zone = none ∧ first.part.motionSource = c.source ∧
    first.part.fcu.mode.moving = true ∧ ReadGranted second .shaper .zone 3 .shaper ∧
    Sound second .zone 3 ∧ second.part.motionSource = c.source ∧ NoFrameWaits second ∧
    (s .zone 3 (.zone (defaultFields .settings)) (some 3) true).part.tst.poisoned.get .zone 3 = true ∧
    (testPermitted first.part).motionSource ≠ c.source := by
  unfold ReadGranted Sound NoFrameWaits
  decide +kernel

/-- The settings values of that computation lie within their fields, and its one read is in progress. -/
theorem test_meets_period_settings :
    WithinSettings (defaultFields .settings) ∧
    ComputationWithinSettings (testAccess .shaper (.entryRead .zone 3) .shaper fun p => { p with
      msh.computation := some ⟨none, true, false, .zone (defaultFields .settings)⟩
      tst.waiting := [] }) :=
  ⟨Laws.defaultFields_withinSettings, Laws.defaultFields_withinSettings, 3, by decide⟩

theorem test_meets_response_hold :
    let s := fun a => testState fun p => { p with
      fcu.mode := .maneuver, fcu.resume := some .run, hre.active := some (testActive a 0) }
    (∀ a, (s a).part.hre.active = some (testActive a 0) ∧ (testActive a 0).timer ≠ none ∧
      (s a).part.hre.pending = none ∧ (testActive a 0).response.action = a) ∧
    (s .stopBlade).part.fcu.mode = .maneuver ∧ NoFrameWaits (s .stopBlade) ∧
    NoFrameWaits (s .slow) ∧ (s .pause).part.fcu.mode = .maneuver ∧
    (s .pause).part.fcu.resume = some .run ∧ NoFrameWaits (s .pause) := by
  unfold NoFrameWaits
  refine ⟨fun a => ⟨rfl, ?_, rfl, rfl⟩, ?_⟩
  · exact Option.some_ne_none 0
  · decide

/-- A BACK_TURN in its two phases, below its distance, at it and past it, and at a maneuver speed of 0. -/
theorem test_meets_back_turn :
    let s := fun spinning progress speed => testState fun p => { p with
      fcu.mode := .maneuver
      fcu.resume := some .run
      msh.maneuverSpeed := speed
      msh.wheels.left.distance := 4
      msh.wheels.right.distance := 4
      hre.active := some { testActive .backTurn 0 with
        timer := none, spinning := spinning, progress := progress
        response := { (testActive .backTurn 0).response with reverse := 10, spin := 10 } } }
    let progress := fun x : State => x.part.hre.active.map (·.progress)
    (s false 5 250).part.hre.active.map (·.response.action) = some .backTurn ∧
    (s false 5 250).part.hre.active.map (·.response.reverse) = some 10 ∧
    (s true 6 250).part.hre.active.map (·.response.spin) = some 10 ∧
    progress (s false 5 250) = some 5 ∧ 5 + (((4 : Int) + 4).natAbs + 0) / 2 < 10 ∧
    progress (s true 6 250) = some 6 ∧ 10 ≤ 6 + ((4 : Int).natAbs + (4 : Int).natAbs + 0) / 2 ∧
    (s true 6 250).part.hre.pending = none ∧ (s true 6 250).part.msh.maneuverSpeed ≠ 0 ∧
    (s true 6 0).part.msh.maneuverSpeed = 0 ∧ (s true 6 250).part.fcu.mode = .maneuver ∧
    (s true 6 250).part.fcu.resume = some .run ∧ NoFrameWaits (s false 5 250) ∧ NoFrameWaits (s true 6 0) := by
  unfold NoFrameWaits
  decide

/-- At a maneuver speed of 0 the roll of the wheels neither ends a BACK_TURN nor moves it on, distance 0 or not; at
another speed a REVERSE phase of distance 0 is reached at its first credit (R153). -/
theorem test_back_turn_speed_zero :
    let phase := fun speed => match exec .shaperPeriod (testState fun p => { p with
        fcu.mode := .maneuver
        fcu.resume := some .run
        msh.maneuverSpeed := speed
        msh.wheels.left.distance := 9
        hre.active := some { testActive .backTurn 0 with timer := none } }) with
      | .next t => t.part.hre.active.map fun a => (a.spinning, a.progress)
      | .fault _ | .refused _ => none
    phase 0 = some (false, 0) ∧ phase 250 = some (true, 0) := by decide +kernel

theorem test_meets_class_timers :
    let s := fun tx => testState fun p => { p with
      plp.tx := tx
      nco.classes.field.entries := [⟨.keepState, 0, 1, 9⟩]
      nco.classes.field.holdTimer := some 0
      nco.classes.field.quietTimer := some 0 }
    (s []).part.agenda = {} ∧ ((s []).part.nco.classes.get .field).entries ≠ [] ∧
    (s []).part.plp.noticeWaits .field = false ∧
    (s [.notice .field false []]).part.plp.noticeWaits .field = true ∧
    ((s []).part.nco.classes.get .field).holdTimer ≠ none ∧
    ((s []).part.nco.classes.get .field).quietTimer ≠ none := by decide

/-- An entry added in the millisecond in which the quiet timer has run out waits for that expiry, which is the
next to be taken (R198). -/
theorem test_entry_joins_before_the_expiry :
    let s := testState fun p => { p with
      fcu.keepTimer := some 3
      nco.classes.field.entries := [⟨.keepState, 0, 1, 9⟩]
      nco.classes.field.quietTimer := some 0 }
    (match exec .keepTimerExpiry s with
      | .next t => decide (t.part.nco.classes.field.entries.length = 2 ∧
          t.part.nco.classes.field.quietTimer = some 0 ∧
          (t.part.expiries.filter (·.1)).map (·.2) = [.noticeQuietExpiry .field])
      | .fault _ | .refused _ => false) = true := by decide +kernel

theorem test_meets_scrub_expiry :
    let s := fun m => testState fun p => { p with tst.scrubTimer := some 0, tst.mode := m }
    (s .normal).part.tst.scrubTimer ≠ none ∧ (s .normal).part.tst.mode = .normal ∧
    (∀ q ∈ (s .normal).part.tst.waiting, q.owner ≠ .scrub) ∧
    (s .normal).part.tst.current.map (·.request.owner) ≠ some .scrub ∧
    (s .test).part.tst.mode ≠ .normal ∧ (s .test).part.agenda = {} := by decide

/-- The left wheel's STOP, on the wire after reset, and the right wheel's SETPOINT with a lookahead half: a first
count, a plausible one and one beyond the bound. -/
theorem test_meets_wheel_answer :
    let e : Exchange := { transfer := .setpoint 100 (some 50) }
    let s := fun r => testWire 1 false { inHand := some e } fun p => { p with
      msh.wheels.right.reference := r, clock := 1 }
    let a := { testAnswer 1 testAccept with lookahead := testYield }
    AnswersTheTry State.reset (testAnswer 0 testAccept) false ∧
    (State.reset.part.node 0).inHand = some { transfer := .stop } ∧
    AnswersTheTry (s none) a false ∧ a.node ≠ 2 ∧ ((s none).part.node 1).inHand = some e ∧
    ((s none).part.node 1).superseded = false ∧ NoFrameWaits (s none) ∧ a.lookahead.yield = true ∧
    (s none).part.msh.wheels.right.reference = none ∧
    (s (some 3)).part.msh.wheels.right.reference = some 3 ∧
    ((a.ticks.toNat : Int) - (3 : BitVec 16).toNat - 4) % 65536 = 0 ∧
    (4 : Int).natAbs * (s none).part.msh.kilotick ≤ 3000 * 1 ∧
    ((a.ticks.toNat : Int) - (65000 : BitVec 16).toNat - 543) % 65536 = 0 ∧
    3000 * 1 < (543 : Int).natAbs * (s none).part.msh.kilotick := by
  unfold AnswersTheTry NoFrameWaits
  exact ⟨⟨⟨2, rfl⟩, rfl⟩, rfl, ⟨⟨2, rfl⟩, rfl⟩, by decide⟩

theorem test_meets_silent_tries :
    let s := fun n => testState fun p => { p with
      dbm.nodes.n0.inHand := some { transfer := .stop, tries := n } }
    let write : Exchange := { transfer := .bladeRun 1, tries := 2 }
    let b := testWire 2 false { inHand := some write } fun p =>
      { testPermitted p with dbm.interlock := .writing }
    (s 2).part.dbm.bus = .wire 0 false 1 2 ∧
    ((s 2).part.node 0).inHand = some { transfer := .stop, tries := 2 } ∧
    ((s 3).part.node 0).inHand = some { transfer := .stop, tries := 3 } ∧
    ((s 2).part.node 0).superseded = false ∧ NoFrameWaits (s 2) ∧ (s 3).part.fcu.mode ≠ .safe ∧
    b.part.dbm.bus = .wire 2 false 1 2 ∧ (b.part.node 2).inHand = some write ∧
    (b.part.node 2).superseded = false ∧ b.part.dbm.interlock = .writing ∧
    b.part.bladePermitted = true ∧ NoFrameWaits b := by
  unfold NoFrameWaits
  decide

theorem test_meets_held_exchange :
    let s := testState fun p => { p with
      dbm.bus := .free
      dbm.nodes.n1 :=
        { standing := .holding, inHand := some { transfer := .stop, held := true }
          hold := some { start := 0, left := 9 } } }
    let write : Exchange := { transfer := .bladeRun 1, held := true }
    let b := testState fun p => { testPermitted p with
      dbm.bus := .reserved
      dbm.interlock := .writing
      dbm.nodes.n2 :=
        { standing := .holding, inHand := some write, hold := some { start := 0, left := 9 } } }
    (s.part.node 1).standing = .holding ∧
    (s.part.node 1).inHand = some { transfer := .stop, held := true } ∧ (1 : Fin 3) ≠ 2 ∧
    (b.part.node 2).standing = .holding ∧ (b.part.node 2).inHand = some write ∧
    b.part.dbm.interlock = .writing ∧ b.part.bladePermitted = true := by decide

theorem test_meets_blade_answers :
    let s := fun x f => testWire 2 false { inHand := some { transfer := x } } f
    let open' := { testAnswer 2 testAccept with guardClosed := false }
    (∀ x f, AnswersTheTry (s x f) (testAnswer 2 testAccept) false ∧ AnswersTheTry (s x f) open' false ∧
      AnswersTheTry (s x f) (testAnswer 2 testReject) false ∧
      ((s x f).part.node 2).inHand = some { transfer := x } ∧ ((s x f).part.node 2).superseded = false ∧
      ((s x f).part.node 2).slot = {}) ∧
    NoFrameWaits (s (.guardRead 1) testPermitted) ∧
    (testAnswer 2 testAccept).guardClosed = true ∧ open'.guardClosed = false ∧
    (s (.guardRead 1) testPermitted).part.bladePermitted = true ∧
    (s (.guardRead 1) id).part.bladePermitted = false ∧
    (let b := s (.bladeRun 2) fun p => { testPermitted p with
        fcu.blade := .arming, fcu.permission := true, fcu.levelToSend := 1 }
     b.part.fcu.blade = .arming ∧ b.part.fcu.permission = true ∧ b.part.fcu.levelToSend ≠ 2) ∧
    (s .bladeStop fun p => { p with fcu.blade := .spinning 1 }).part.fcu.blade = .spinning 1 ∧
    (let b := s .bladeStatus fun p => { p with fcu.blade := .stopping, fcu.armRefused := true }
     b.part.fcu.blade = .stopping ∧ b.part.fcu.armRefused = true ∧ NoFrameWaits b) ∧
    { testAnswer 2 testAccept with rpm := 9 }.rpm ≠ 0 ∧ (testAnswer 2 testAccept).rpm = 0 := by
  unfold NoFrameWaits AnswersTheTry
  refine ⟨fun x f => ⟨⟨⟨2, rfl⟩, rfl⟩, ⟨⟨2, rfl⟩, rfl⟩, ⟨⟨2, rfl⟩, rfl⟩, rfl, rfl, rfl⟩, ?_⟩
  decide

/-- Every signal for a STOP, a SETPOINT and the write of an arm, a hold whose limit has passed, and a SETPOINT
whose stop has come meanwhile. -/
theorem test_meets_answers_that_do_not_accept :
    let s := fun n x => testWire n false
      { standing := .holding, inHand := some { transfer := x }, hold := some { start := 0, left := 9 } } id
    let late := testWire 0 false
      { standing := .holding, inHand := some { transfer := .stop }, hold := some { start := 0, left := 0 } } id
    let write := testWire 2 false { inHand := some { transfer := .bladeRun 1 } } fun p =>
      { p with dbm.interlock := .writing }
    let passed := testWire 1 false
      { inHand := some { transfer := .setpoint 5 (some 6) }, superseded := true, slot := { stop := true } } id
    let lateSetpoint := testWire 1 false
      { standing := .holding, inHand := some { transfer := .setpoint 5 none }, superseded := true
        hold := some { start := 0, left := 0 } } id
    HoldPassed lateSetpoint 1 ∧ AnswersTheTry lateSetpoint (testAnswer 1 testHold) false ∧
    (lateSetpoint.part.node 1).superseded = true ∧ NoFrameWaits lateSetpoint ∧
    (∀ n x g, AnswersTheTry (s n x) (testAnswer n g) false ∧
      ((s n x).part.node n).inHand = some { transfer := x } ∧ ¬ HoldPassed (s n x) n) ∧
    HoldPassed late 0 ∧ AnswersTheTry write (testAnswer 2 testYield) false ∧ ¬ HoldPassed write 2 ∧
    write.part.dbm.interlock = .writing ∧ AnswersTheTry passed (testAnswer 1 testHold) false ∧
    (passed.part.node 1).superseded = true ∧ (passed.part.node 1).slot.stop = true ∧
    ¬ HoldPassed passed 1 ∧ testHold.any = true ∧ NoFrameWaits passed ∧ NoFrameWaits late := by
  unfold AnswersTheTry HoldPassed NoFrameWaits
  refine ⟨⟨rfl, _, rfl, rfl⟩, ⟨⟨2, rfl⟩, rfl⟩, rfl, by decide, fun n x g => ⟨⟨⟨2, rfl⟩, rfl⟩, ?_, ?_⟩,
    ⟨rfl, _, rfl, rfl⟩, ⟨⟨2, rfl⟩, rfl⟩, ?_, rfl, ⟨⟨2, rfl⟩, rfl⟩, rfl, rfl, ?_, by decide⟩
  · revert n; intro n; match n with | 0 => rfl | 1 => rfl | 2 => rfl
  · rintro ⟨-, h, hh, h0⟩
    match n with
    | 0 | 1 | 2 => exact absurd (Option.some.inj hh ▸ h0) (by decide)
  · rintro ⟨h, -⟩
    exact absurd h (by decide)
  · rintro ⟨h, -⟩
    exact absurd h (by decide)

theorem test_meets_report_grant :
    let s := fun tries left => testWire 0 true
      { standing := .holding, inHand := some { transfer := .stop }, suspended := true, grant := some ⟨tries, false⟩
        hold := some { start := 0, left := left, grant := true } } id
    (∀ g, AnswersTheTry (s 1 9) (testAnswer 0 g) true) ∧ (s 1 9).part.dbm.interlock ≠ .writing ∧
    ((s 1 9).part.node 0).grant = some ⟨1, false⟩ ∧ ((s 3 9).part.node 0).grant = some ⟨3, false⟩ ∧
    HoldPassed (s 1 0) 0 ∧ ¬ HoldPassed (s 1 9) 0 ∧ NoFrameWaits (s 1 9) := by
  unfold AnswersTheTry HoldPassed NoFrameWaits
  refine ⟨fun g => ⟨⟨2, rfl⟩, rfl⟩, by decide, rfl, rfl, ⟨rfl, _, rfl, rfl⟩, ?_, by decide⟩
  rintro ⟨-, h, hh, h0⟩
  exact absurd (Option.some.inj hh ▸ h0) (by decide)

/-- A TABLE_READ granted in each store mode, of sound words, of one flipped bit and of two, open and protected. -/
theorem test_meets_table_read_answered :
    let s := fun tab m poisoned memory => { testState fun p => { p with
        plp.op := some (.tableRead tab 23)
        plp.rx := [testRequestFrame]
        tst.poisoned := p.tst.poisoned.put .zone 23 poisoned
        tst.current := some ⟨⟨.planner, .entryRead tab 23, .plannerRead⟩, m, false⟩ } with
      mem := memory }
    let single := Memory.write [] (wordNumber .zone 23 0) ⟨1, 0⟩
    let bad := Memory.write [] (wordNumber .zone 23 0) ⟨3, 0⟩
    let badRule := Memory.write [] (wordNumber .rule 23 0) ⟨3, 0⟩
    (∀ tab m poisoned memory, (s tab m poisoned memory).part.plp.inHand = some testRequestFrame ∧
      NoFrameWaits (s tab m poisoned memory)) ∧ 23 < Table.entries .zone ∧
    (s .zone .normal true []).part.tst.poisoned.get .zone 23 = true ∧
    (s .zone .normal false []).part.tst.poisoned.get .zone 23 = false ∧
    (∀ w ∈ (s .zone .test false []).mem.readEntry .zone 23, w.judge ≠ .uncorrectable) ∧
    (∃ w ∈ (s .zone .detectOnly false single).mem.readEntry .zone 23, w.judge = .single 0) ∧
    (∃ w ∈ (s .zone .test false bad).mem.readEntry .zone 23, w.judge = .uncorrectable) ∧
    (∃ w ∈ (s .rule .normal false badRule).mem.readEntry .rule 23, w.judge = .uncorrectable) ∧
    Table.isProtected .rule = true ∧ Table.isProtected .zone = false := by
  refine ⟨fun tab m b memory => ⟨rfl, ?_⟩, ?_⟩
  · intro f hf
    exact List.mem_singleton.mp hf ▸ (by decide : testRequestFrame.status ≠ .waiting)
  · decide +kernel

theorem test_meets_full_write :
    let s := testAccess .planner (.fullWrite .zone 23 testZoneFields) .plannerWrite fun p => { p with
      plp.op := some (.writing .zone 23)
      plp.rx := [testRequestFrame] }
    s.part.tst.current =
      some ⟨⟨.planner, .fullWrite .zone 23 testZoneFields, .plannerWrite⟩, .normal, false⟩ ∧
    23 < Table.entries .zone ∧ s.part.plp.inHand = some testRequestFrame ∧ NoFrameWaits s := by
  unfold NoFrameWaits
  decide

/-- A partial write of the speed cap touches word 1 of its entry: sound, or with two bits flipped. -/
theorem test_meets_partial_write :
    let s := fun m => { testAccess .planner (.partialWrite .zone 23 4 testZoneFields) .plannerWrite fun p =>
        { p with plp.rx := [testRequestFrame] } with mem := m }
    let bad := Memory.write [] 286 ⟨3, 0⟩
    touchedWords .zone 4 = [1] ∧ wordNumber .zone 23 1 = 286 ∧
    ((s bad).mem.read 286).judge = .uncorrectable ∧ ((s []).mem.read 286).syndrome = 0 ∧
    mergedOk .zone 4 (entryAfter .zone 4 (storedFields (s []) .zone 23) testZoneFields) = true ∧
    (s []).part.plp.inHand = some testRequestFrame ∧ NoFrameWaits (s []) := by
  unfold NoFrameWaits
  decide +kernel

theorem test_meets_scrub_done :
    let s := fun n m => { testAccess .scrub (.scrub n) .scrub id with mem := m }
    let bad := s 215 (Memory.write [] 215 ⟨3, 0⟩)
    (s 365 []).part.tst.current = some ⟨⟨.scrub, .scrub 365, .scrub⟩, .normal, false⟩ ∧
    ((s 365 []).mem.read 365).syndrome = 0 ∧
    ((s 365 (Memory.write [] 365 ⟨0, 1⟩)).mem.read 365).judge = .single 0 ∧
    ((s 365 (Memory.write [] 365 ⟨3, 0⟩)).mem.read 365).judge = .uncorrectable ∧
    NoFrameWaits (s 365 []) ∧ (wordPlace 365).1.isProtected = false ∧
    bad.part.tst.current = some ⟨⟨.scrub, .scrub 215, .scrub⟩, .normal, false⟩ ∧
    (bad.mem.read 215).judge = .uncorrectable ∧ (wordPlace 215).1.isProtected = true ∧
    NoFrameWaits bad := by
  unfold NoFrameWaits
  decide +kernel

theorem test_meets_halt_rule :
    let w : Walk := ⟨⟨.bumpC, 1, 1⟩, none, .run, 63⟩
    let s := { testAccess .walk (.entryRead .rule 63) .ruleWalk fun p =>
        { p with fcu.mode := .run, hre.walk := some w } with
      mem := testMemory .rule 63 testRuleFields }
    ReadGranted s .walk .rule 63 .ruleWalk ∧ Sound s .rule 63 ∧ s.part.hre.walk = some w ∧
    ruleMatches (storedFields s .rule 63) w = true ∧ valueAt (storedFields s .rule 63) 6 = 0 ∧
    valueAt (storedFields s .rule 63) 9 = 4 ∧ s.part.fcu.mode.moving = true ∧ s.part.hre.active = none ∧
    NoFrameWaits s := by
  unfold ReadGranted Sound NoFrameWaits
  decide +kernel

/-- The decision of a SLOW of level 5, by its own rule or another's, with nothing in force, below, above and held
off; of an own rule's HALT; of a BACK_TURN over a PAUSE; and a pending response above the one in force, behind a
segment that holds through. -/
theorem test_meets_responses :
    let w : Walk := ⟨⟨.bumpC, 1, 1⟩, none, .run, 63⟩
    let s := fun (code : Int) f => { testAccess .walk (.entryRead .rule 63) .ruleWalk fun p =>
        f { p with fcu.mode := .run, hre.walk := some w } with
      mem := testMemory .rule 63 (testRuleFields.set 9 code) }
    let slow := s 2 fun p => { p with hre.active := some (testActive .stopBlade 9) }
    let through : Segment := { testSegment.record with holdThrough := true }
    let turn := s 1 fun p => { p with
      sq.queue := [through], sq.active := true, hre.active := some (testActive .slow 9) }
    let preempting := s 1 fun p => { p with
      fcu.mode := .maneuver, fcu.resume := some .run, hre.active := some (testActive .pause 9) }
    ReadGranted slow .walk .rule 63 .ruleWalk ∧ Sound slow .rule 63 ∧ NoFrameWaits slow ∧
    ruleMatches (storedFields slow .rule 63) w = true ∧ valueAt (storedFields slow .rule 63) 6 = 0 ∧
    actionOf (valueAt (storedFields slow .rule 63) 9).toNat = some .slow ∧
    actionOf (valueAt (storedFields (s 4 id) .rule 63) 9).toNat = some .halt ∧
    (responseOf (storedFields slow .rule 63) 63 .bumpC .slow).level = 5 ∧
    (s 2 id).part.hre.active = none ∧ slow.part.fcu.mode.moving = true ∧
    slow.part.deferralTest = false ∧ (testActive .slow 9).response.rule ≠ some 63 ∧
    (testActive .slow 9).response.level < 5 ∧
    { builtinResponse with rule := some 63 }.rule = some 63 ∧ 5 ≤ builtinResponse.level ∧
    turn.part.deferralTest = true ∧ turn.part.hre.pending = none ∧
    actionOf (valueAt (storedFields turn .rule 63) 9).toNat = some .backTurn ∧
    (responseOf (storedFields turn .rule 63) 63 .bumpC .backTurn).unconditional = false ∧
    preempting.part.fcu.mode = .maneuver ∧ preempting.part.deferralTest = false ∧
    (testActive .pause 9).response.action = .pause := by
  unfold ReadGranted Sound NoFrameWaits
  decide +kernel

/-- A PAUSE, a BACK_TURN and a HOME with nothing in force, over a SLOW, and over a maneuver. -/
theorem test_meets_response_modes :
    let w : Walk := ⟨⟨.bumpC, 1, 1⟩, none, .run, 63⟩
    let s := fun (code : Int) f => { testAccess .walk (.entryRead .rule 63) .ruleWalk fun p =>
        f { p with hre.walk := some w, sq.queue := [testSegment.record], sq.active := true } with
      mem := testMemory .rule 63 (testRuleFields.set 9 code) }
    let none' := fun m code => s code fun p => { p with fcu.mode := m }
    let light := fun m code => s code fun p => { p with fcu.mode := m, hre.active := some (testActive .slow 9) }
    let held := fun r code => s code fun p => { p with
      fcu.mode := .maneuver, fcu.resume := some r, hre.active := some (testActive .backTurn 9)
      ltr.lastZone := if code = 2 then some 4 else none
      sq.queue := [{ testSegment.record with cut := true }, testSegment.record] }
    let action := fun x : State => actionOf (valueAt (storedFields x .rule 63) 9).toNat
    action (none' .run 0) = some .pause ∧ action (none' .homing 1) = some .backTurn ∧
    action (none' .run 5) = some .home ∧ (none' .docking 0).part.fcu.mode = Resume.docking.mode ∧
    (none' .run 0).part.hre.active = none ∧ (none' .run 0).part.hre.pending = none ∧
    action (light .run 5) = some .home ∧ (light .docking 1).part.fcu.mode = Resume.docking.mode ∧
    (light .run 0).part.deferralTest = false ∧ (testActive .slow 9).response.level < 5 ∧
    (held .run 5).part.fcu.resume = some .run ∧ action (held .homing 2) = some .slow ∧
    (held .homing 2).part.ltr.startZone = some 4 ∧ action (held .homing 3) = some .stopBlade ∧
    (held .homing 3).part.ltr.startZone = none ∧ (held .homing 3).part.rtu.leg = none ∧
    action (held .run 4) = some .halt ∧ (held .run 4).part.deferralTest = false ∧
    (held .docking 0).part.rtu.attempts < (held .docking 0).part.rtu.params.retries ∧
    testSegment.record.length ≠ 0 ∧ (held .run 0).part.hre.pending = none ∧
    (none' .run 5).part.ltr.startZone = none ∧ Sound (held .run 0) .rule 63 := by
  unfold Sound
  decide +kernel

/-- A SLOW over a PAUSE that holds a leg in a FOLLOW phase that holds through: the leg begins again in ACQUIRE, the
pending PAUSE becomes active in the same event, with one entry of the mode (R10, R15, R167). -/
theorem test_single_mode_entry :
    let w : Walk := ⟨⟨.bumpC, 1, 1⟩, none, .run, 63⟩
    let s := { testAccess .walk (.entryRead .rule 63) .ruleWalk fun p => { p with
        hre.walk := some w
        fcu.mode := .maneuver
        fcu.resume := some .homing
        rtu.leg := some
          { key := 0, passage := 1, start := 4, target := 5, guideLoop := 2, interior := .left, offset := 0
            speed := 200, holdThrough := true, follow := true, distance := 9, search := 900 }
        hre.active := some (testActive .pause 9)
        hre.pending := some { (testActive .pause 9).response with level := 9 } } with
      mem := testMemory .rule 63 (testRuleFields.set 9 2) }
    s.part.deferralTest = true ∧
    (match exec .entryReadDone s with
      | .next t => decide (t.part.fcu.mode = .maneuver ∧ t.part.fcu.resume = some .homing ∧
          t.part.hre.active.map (·.response.level) = some 9 ∧ t.part.deferralTest = false ∧
          t.part.nco.classes.field.entries.map (fun e => (e.kind, e.subject)) = [(.modeChanged, 2)])
      | .fault _ | .refused _ => false) = true := by decide +kernel

/-- A segment marked for cutting holds through no more (R87). -/
theorem test_cut_ends_hold_through :
    let s := fun cut => testState fun p => { p with
      fcu.mode := .maneuver
      fcu.resume := some .run
      sq.queue := [{ testSegment.record with holdThrough := true, cut := cut }]
      sq.active := true }
    (s false).part.deferralTest = true ∧ (s true).part.deferralTest = false := by decide

/-- A segment of speed 0 and length above 0 makes no progress, unless it is a PAUSE (R78). -/
theorem test_speed_zero_makes_no_progress :
    let g : Segment := { testSegment.record with speed := 0 }
    0 < g.length ∧ g.stepKind = .nothing ∧ { g with length := 0 }.stepKind = .along ∧
    { g with shape := .pause }.stepKind = .time ∧ testSegment.record.stepKind = .along := by decide

/-- The last check of a MODE RUN whose queue has a marker before a segment with the blade on, with a PLAN_FLUSH
waiting: the event ends with no active segment, so no arm is started, and there is one REFILL and one STARVED
(R77, R85, R86, R193). -/
theorem test_end_of_event_decides :
    let s := { testAccess .planner (.entryRead .zone 23) .plannerRead fun p => { testPermitted p with
        fcu.mode := .idle
        plp.op := some (.entryCheck false (.dockZone 7))
        plp.rx := [testRequestFrame, ⟨4, 9, [], .waiting⟩]
        ltr.tracks.l7.combined := .inside
        dbm.bus := .free
        dbm.resetStops := ⟨false, false, false⟩
        sq.queue := [{ testSegment.record with length := 0 }, testSegment.record]
        sq.active := false } with
      mem := testMemory .zone 23 testZoneFields }
    (match exec .entryReadDone s with
      | .next t => decide (t.part.fcu.mode = .run ∧ t.part.sq.queue = [] ∧ t.part.fcu.blade = .off ∧
          t.part.fcu.permission = false ∧ (t.part.node 2).slot.arm = none ∧
          t.part.plp.rx.map (·.status) = [.answered, .answered]) &&
          t.part.plp.tx.any (fun f => match f with
            | .notice .motion _ es =>
              decide (es.map (fun e => (e.kind, e.subject)) =
                [(.segDone, 1), (.segDone, 1), (.refill, 0), (.starved, 0)])
            | .notice .hazard .. | .notice .field .. | .notice .store .. | .answer .. | .started _ => false)
      | .fault _ | .refused _ => false) = true := by decide +kernel

/-- The same with a PLAN_APPEND waiting behind a MODE RUN that ends the one marker: REFILL counts the segment
placed, and nothing is STARVED (R85, R86, R193). -/
theorem test_append_in_the_event_of_run :
    let s := { testAccess .planner (.entryRead .zone 23) .plannerRead fun p => { p with
        plp.op := some (.entryCheck false (.dockZone 7))
        plp.rx := [testRequestFrame, ⟨3, 9, planAppendBody [testSegment], .waiting⟩]
        ltr.tracks.l7.combined := .inside
        sq.queue := [{ testSegment.record with length := 0 }] } with
      mem := testMemory .zone 23 testZoneFields }
    (match exec .entryReadDone s with
      | .next t => decide (t.part.sq.queue.length = 1 ∧ t.part.sq.active = true ∧
          t.part.nco.classes.motion.entries.map (fun e => (e.kind, e.subject)) =
            [(.segDone, 1), (.refill, 1)])
      | .fault _ | .refused _ => false) = true := by decide +kernel

theorem test_meets_responses_lifted :
    let g : Segment := { testSegment.record with holdThrough := true }
    let r : Response := { builtinResponse with action := .pause, level := 4, unconditional := false, hold := 5 }
    let s := testState fun p => { p with
      fcu.mode := .run
      sq.queue := [g]
      sq.active := true
      hre.active := some (testActive .slow 9)
      hre.pending := some r }
    PortReady s ∧ s.part.fcu.mode = .run ∧ s.part.sq.active = true ∧ s.part.sq.queue = g :: [] ∧
    g.holdThrough = true ∧ g.cut = false ∧ s.part.rtu.finalApproach = false ∧
    s.part.hre.active = some (testActive .slow 9) ∧ s.part.hre.pending = some r ∧
    (testActive .slow 9).response.level < r.level := by
  unfold PortReady
  decide

theorem test_meets_zone :
    let ev : ZoneEval := ⟨State.reset.part.ltr.states, .scan 23⟩
    let s := fun zone last => { testAccess .zoneEval (.entryRead .zone 23) .zoneEval fun p =>
        { p with ltr.eval := some ev, ltr.zone := zone, ltr.lastZone := last } with
      mem := testMemory .zone 23 testZoneFields }
    ReadGranted (s none none) .zoneEval .zone 23 .zoneEval ∧ Sound (s none none) .zone 23 ∧
    (s none none).part.ltr.eval = some ev ∧ (s none none).part.ltr.reevaluate = false ∧
    (zoneEntryOf (storedFields (s none none) .zone 23)).valid = true ∧
    patternMatches (zoneEntryOf (storedFields (s none none) .zone 23)) ev.states = true ∧
    (s none none).part.ltr.zone = none ∧ (s none none).part.ltr.lastZone = none ∧
    NoFrameWaits (s none none) ∧ (s none (some 23)).part.ltr.lastZone = some 23 ∧
    (s (some 4) (some 4)).part.ltr.zone = some 4 ∧ (s none (some 4)).part.ltr.lastZone = some 4 := by
  unfold ReadGranted Sound NoFrameWaits
  decide +kernel

/-- A lookup of the passage from zone 4 to zone 23, at a passage that joins them and at passages that do not. -/
theorem test_meets_lookup :
    let ev := fun i => ZoneEval.mk State.reset.part.ltr.states (.lookup ⟨23, 2, 4⟩ i)
    let s := fun i fields => { testAccess .zoneEval (.entryRead .passage i) .zoneEval fun p =>
        { p with ltr.eval := some (ev i) } with
      mem := testMemory .passage i fields }
    let joins : List Int := [1, 23, 4, 0, 0, 0, 300, 0]
    (∀ i ∈ [0, 30, 31], ReadGranted (s i joins) .zoneEval .passage i .zoneEval ∧
      Sound (s i joins) .passage i ∧ (s i joins).part.ltr.eval = some (ev i) ∧
      (s i joins).part.ltr.reevaluate = false ∧ NoFrameWaits (s i joins) ∧
      (passageEntryOf (storedFields (s i joins) .passage i)).joins 4 23 = true ∧
      (passageEntryOf (storedFields (s i (joins.set 0 0)) .passage i)).valid = false) ∧
    State.reset.part.fcu.mode ≠ .docked := by
  unfold ReadGranted Sound NoFrameWaits
  decide +kernel

/-- The eighth read of a frame, of an own loop behind seven of every kind, with a frame waiting. -/
theorem test_meets_frame_result :
    let e : LoopEntry := ⟨true, .guide, 0, false, 1, 8, 1, 1⟩
    let seven : List LoopRead :=
      [.unreadable, .entry { e with valid := false }, .entry { e with role := .foreign }, .entry e,
       .unreadable, .unreadable, .entry e]
    let s := fun waiting => testAccess .correlator (.entryRead .loopCode 7) .correlator fun p => { p with
      scr.processing := some ⟨⟨5, [], []⟩, seven⟩
      scr.waiting := waiting }
    ReadGranted (s none) .correlator .loopCode 7 .correlator ∧ Sound (s none) .loopCode 7 ∧
    (s none).part.scr.processing = some ⟨⟨5, [], []⟩, seven⟩ ∧ seven.length = 7 ∧
    (s none).part.scr.waiting = none ∧ (s (some ⟨6, [], []⟩)).part.scr.waiting = some ⟨6, [], []⟩ ∧
    seven[0]? = some .unreadable ∧ seven[3]? = some (.entry e) ∧ e.role ≠ .foreign ∧
    NoFrameWaits (s none) := by
  unfold ReadGranted Sound NoFrameWaits
  decide +kernel

/-- Each stage of leg planning from zone 5: dock zone or not, a stack that leads into it or does not, its entry
with a home link and without, passages that join and do not, a target of lower rank and of a higher. -/
theorem test_meets_planning :
    let s := fun tab i stage stack fields => { testAccess .planning (.entryRead tab i) .returning fun p =>
        { p with fcu.mode := .homing, rtu.planning := some ⟨5, stage⟩, rtu.stack := stack } with
      mem := testMemory tab i fields }
    let settings := fun z => s .settings 0 .settings [⟨2, 5, 6, 0⟩] ((defaultFields .settings).set 22 z)
    let zone := fun link => s .zone 5 (.startZone 900) [] (testZoneFields.set 7 link)
    let passage := fun stage a => s .passage 4 stage [] [1, a, 5, 0, 0, 0, 300, 0]
    (∀ z, (settings z).part.rtu.planning = some ⟨5, .settings⟩ ∧ (settings z).part.fcu.mode = .homing ∧
      (settings z).part.hre.active = none ∧ (settings z).part.rtu.planDue = false) ∧
    ReadGranted (settings 5) .planning .settings 0 .returning ∧ Sound (settings 5) .settings 0 ∧
    NoFrameWaits (settings 5) ∧ settingOf (storedFields (settings 5) .settings 0) 22 = 5 ∧
    settingOf (storedFields (settings 7) .settings 0) 22 = 7 ∧
    (settings 7).part.rtu.stack = [⟨2, 5, 6, 0⟩] ∧ Sound (zone 4) .zone 5 ∧
    (zoneEntryOf (storedFields (zone 4) .zone 5)).homeLink = some 4 ∧
    (zoneEntryOf (storedFields (zone 4) .zone 5)).valid = true ∧
    (zoneEntryOf (storedFields (zone 32) .zone 5)).homeLink = none ∧
    Sound (passage (.passage 900 4 (.stack 6)) 6) .passage 4 ∧
    (passageEntryOf (storedFields (passage (.passage 900 4 (.stack 6)) 6) .passage 4)).joins 5 6 = true ∧
    (passageEntryOf (storedFields (passage (.passage 900 4 (.stack 6)) 7) .passage 4)).joins 5 6 = false ∧
    (passageEntryOf (storedFields (passage (.passage 900 4 (.link 3)) 6) .passage 4)).zoneB = 5 ∧
    (zoneEntryOf (storedFields (zone 4) .zone 5)).rank = 3 := by
  unfold ReadGranted Sound NoFrameWaits
  refine ⟨fun z => ⟨rfl, rfl, rfl, rfl⟩, ?_⟩
  decide +kernel

theorem test_meets_invariants :
    MemoryCanonical State.reset ∧ Quiet State.reset ∧ ReceiveBounded State.reset ∧
    RouteBounded State.reset ∧ QueueBounded State.reset ∧ NoticesBounded State.reset ∧
    (∃ t, step State.reset = .next t) := by
  have notices : ∀ c, (State.reset.part.nco.classes.get c).entries.length ≤ Config.classPlaces := by
    intro c
    cases c <;> decide
  exact ⟨by unfold MemoryCanonical; decide, by unfold Quiet; decide, by unfold ReceiveBounded; decide,
    by unfold RouteBounded; decide, ⟨by decide, fun _ _ h => nomatch h⟩, notices, ⟨_, rfl⟩⟩

theorem test_meets_log_consistent :
    let s := testState fun p => { p with
      tst.log := { uncorrectable := true, location := some ⟨.zone, 0, 0, 216, 3, .scrub, true⟩ } }
    LogConsistent s := by
  intro s _ l hl
  have h : s.part.tst.log.location = some ⟨.zone, 0, 0, 216, 3, .scrub, true⟩ := rfl
  rw [h] at hl
  exact (Option.some.inj hl) ▸ rfl

theorem test_meets_packed :
    testRuleFields.length = Table.positions .rule ∧ testZoneFields.length = Table.positions .zone ∧
    ((layout .zone 0).zip testZoneFields).all (fun fv => decide (fv.1.low ≤ fv.2) &&
      decide (fv.2 < fv.1.low + 2 ^ fv.1.width)) = true := by decide

theorem test_meets_setpoints : (0 : Int) ≤ 300 ∧ (0 : Int) ≤ 25 ∧ (300 : Int) < ((-400 : Int).natAbs : Int) ∧
    (-300 : Int) ≤ -400 + 100 ∧ (-250 : Int) + 100 ≤ 300 := by decide

theorem test_meets_stack :
    let p : Part := { rtu.stack := [⟨4, 2, 5, 0⟩] }
    p.rtu.stack = ⟨4, 2, 5, 0⟩ :: [] ∧ (State.reset.part.rtu.stack = []) := by decide

theorem test_meets_pattern :
    ∀ k, k < 8 → (zoneEntryOf [1, 9, 0, 0, 0, 0, 0, 0]).patternAt k ≤ 2 := by decide

theorem test_meets_verdict : correctedPeak ⟨true, .guide, 0, true, 1, 8, 1, 1⟩ 9 < 0 := by decide

theorem test_meets_walk_queue :
    let l : List WalkRequest := [⟨.pitch, 2, 5⟩, ⟨.roll, 2, 1⟩]
    (l.map fun q => (q.source, q.subject)).Nodup ∧ (Source.pitch, 2) ∈ l.map (fun q => (q.source, q.subject)) ∧
    (Source.lift, 2) ∉ l.map (fun q => (q.source, q.subject)) := by decide

theorem test_meets_arbiters :
    let d : Dbm := { bus := .free, nodes := ⟨{ slot := { stop := true } }, {}, {}⟩ }
    d.bus = .free ∧ d.grantable = some (2, 0) ∧
    nextRequest [⟨.planner, .entryRead .zone 0, .plannerRead⟩, ⟨.walk, .entryRead .rule 0, .ruleWalk⟩] =
      some ⟨.walk, .entryRead .rule 0, .ruleWalk⟩ ∧ nextRequest [] = none ∧
    (let e : Dbm := { bus := .free, nodes := ⟨{}, { slot := { setpoint := some (5, none) } }, {}⟩ }
     e.grantable = none ∧ e.offers 1 5 = true ∧ (5, 1) ∈ grantOrder ∧ e.resetStops.get 0 = true) := by decide

/-- The write of an arm in progress, and a response behind an active one. -/
theorem test_meets_write_and_pending :
    let s := testWire 2 false { inHand := some { transfer := .bladeRun 1 } } fun p => { p with
      dbm.interlock := .writing
      hre.active := some (testActive .slow 9)
      hre.pending := some builtinResponse }
    WriteHasTheBus s ∧ s.part.dbm.interlock = .writing ∧ PendingBehindActive s ∧
    (∃ t, step s = .next t) := by
  unfold PendingBehindActive
  exact ⟨fun _ => ⟨.inr ⟨1, 2, rfl⟩, rfl, _, 1, rfl, rfl⟩, rfl, by decide, ⟨_, rfl⟩⟩

/-! ### The hypotheses of the widened statements -/

/-- The arbiters are served at reset; a request and an offer that take the store and the bus when a scrub access
and a second silent try end. -/
theorem test_meets_arbiters_served :
    let q : Request := ⟨.planner, .entryRead .zone 0, .plannerRead⟩
    let scrub := testAccess .scrub (.scrub 365) .scrub fun p => { p with tst.waiting := [q] }
    let e : Exchange := { transfer := .stop, tries := 2 }
    let silent := testWire 0 false { inHand := some e } id
    let behind : Dbm := { silent.part.dbm with
      bus := .free
      nodes := silent.part.dbm.nodes.set 0 { silent.part.node 0 with inHand := some { e with tries := 3 } } }
    ArbitersServed State.reset ∧ (∃ t, step State.reset = .next t) ∧
    scrub.part.tst.current = some ⟨⟨.scrub, .scrub 365, .scrub⟩, .normal, false⟩ ∧
    (scrub.mem.read 365).syndrome = 0 ∧ nextRequest scrub.part.tst.waiting = some q ∧
    q.modeRefused scrub.part.fcu.mode = false ∧ q.scrubWithdrawn scrub.part.tst.mode = false ∧
    (testAfter .scrubAccessDone scrub).tst.current = some ⟨q, .normal, false⟩ ∧
    silent.part.dbm.bus = .wire 0 false 1 2 ∧ (silent.part.node 0).inHand = some e ∧ e.tries < 3 ∧
    (silent.part.node 0).superseded = false ∧ silent.part.dbm.interlock ≠ .writing ∧
    behind.grantable = some (2, 0) ∧
    (testAfter .responseTimeout silent).dbm.bus = .wire 0 false (silent.part.dbm.number + 1) 2 := by
  unfold ArbitersServed
  refine ⟨by decide, ⟨_, rfl⟩, ?_⟩
  decide +kernel

/-- A check read of an append with the record of an own loop, of a FOREIGN one and of an uncorrectable one, at each
check that may follow; of a zone, valid, invalid and poisoned; and where the segment is activated at once. -/
theorem test_meets_append_checks :
    let g : Segment := testSegment.record
    let guide : List Int := [1, 1] ++ (defaultFields .loopCode).drop 2
    let s := fun tab i check rest (f : Part → Part) mem =>
      { testAccess .planner (.entryRead tab i) .plannerRead fun p => f { p with
          tst.waiting := []
          plp.op := some (.append [g] (check :: rest))
          plp.rx := [testRequestFrame] } with
        mem := mem }
    let loop := fun rest f => s .loopCode 7 (.loop 0 7) rest f (testMemory .loopCode 7 guide)
    let zone := fun f => s .zone 23 (.zone 3 23) [] f (testMemory .zone 23 testZoneFields)
    let bad := s .loopCode 7 (.loop 0 7) [] id (Memory.write [] (wordNumber .loopCode 7 1) ⟨3, 0⟩)
    let badZone := s .zone 23 (.zone 3 23) [] id (Memory.write [] (wordNumber .zone 23 1) ⟨3, 0⟩)
    let run := loop [] fun p => { p with fcu.mode := .run }
    ReadGranted (loop [] id) .planner .loopCode 7 .plannerRead ∧ Sound (loop [] id) .loopCode 7 ∧
    (loop [] id).part.plp.op = some (.append [g] [.loop 0 7]) ∧
    (loop [] id).part.plp.inHand = some testRequestFrame ∧ NoFrameWaits (loop [] id) ∧
    (∀ q ∈ (loop [] id).part.tst.waiting, q.owner ≠ .planner) ∧
    (loop [] id).part.sq.queue.length + 1 ≤ 32 ∧
    (loopEntryOf (storedFields (loop [] id) .loopCode 7)).valid = true ∧
    (loopEntryOf (storedFields (loop [] id) .loopCode 7)).role = .guide ∧
    (loop [] id).part.fcu.takesAppend = true ∧ (loop [] id).part.fcu.planned = false ∧
    (loop [] fun p => { p with fcu.mode := .halted }).part.fcu.takesAppend = false ∧
    (loopEntryOf (storedFields (s .loopCode 7 (.loop 0 7) [] id []) .loopCode 7)).valid = false ∧
    (∃ w ∈ bad.mem.readEntry .loopCode 7, w.judge = .uncorrectable) ∧
    bad.part.tst.poisoned.get .loopCode 7 = false ∧
    Sound (zone id) .zone 23 ∧ (zoneEntryOf (storedFields (zone id) .zone 23)).valid = true ∧
    (zone fun p => { p with tst.poisoned := p.tst.poisoned.put .zone 23 true }).part.tst.poisoned.get
      .zone 23 = true ∧
    (∃ w ∈ badZone.mem.readEntry .zone 23, w.judge = .uncorrectable) ∧
    (testAfter .entryReadDone (loop [.fail 2] id)).plp.op = none ∧
    (testAfter .entryReadDone (loop [.loop 1 6] id)).tst.current.map (·.request.kind) =
      some (.entryRead .loopCode 6) ∧
    (testAfter .entryReadDone (loop [.zone 1 0] id)).tst.current.map (·.request.kind) =
      some (.entryRead .zone 0) ∧
    (testAfter .entryReadDone bad).fcu.mode = .safe ∧
    (testAfter .entryReadDone badZone).tst.poisoned.get .zone 23 = true ∧
    run.part.fcu.planned = true ∧ run.part.sq.active = false ∧ run.part.sq.queue = [] ∧ g.length ≠ 0 ∧
    (testAfter .entryReadDone run).sq.active = true ∧
    TxFrame.answer 7 .ok [1, 31] ∈ (testAfter .entryReadDone run).plp.tx := by
  unfold ReadGranted Sound NoFrameWaits
  decide +kernel

/-- A check read of a table write with a loop that may be named, an ISLAND in a pattern and in a link, and a
FOREIGN one, followed by each check, or by the write, full or partial. -/
theorem test_meets_write_checks :
    let s := fun role mask island rest =>
      { testAccess .planner (.entryRead .loopCode 7) .plannerWrite fun p => { p with
          tst.waiting := []
          plp.op := some (.tableWrite .zone 23 mask testZoneFields (.loop 7 island :: rest))
          plp.rx := [testRequestFrame] } with
        mem := testMemory .loopCode 7 ([1, role] ++ (defaultFields .loopCode).drop 2) }
    let bad := { s 1 4 false [] with mem := Memory.write [] (wordNumber .loopCode 7 1) ⟨3, 0⟩ }
    let role := fun x : State => (loopEntryOf (storedFields x .loopCode 7)).role
    let kind := fun x : State => (testAfter .entryReadDone x).tst.current.map (·.request.kind)
    ReadGranted (s 1 4 false []) .planner .loopCode 7 .plannerWrite ∧ Sound (s 1 4 false []) .loopCode 7 ∧
    (s 1 4 false []).part.plp.op = some (.tableWrite .zone 23 4 testZoneFields [.loop 7 false]) ∧
    (s 1 4 false []).part.plp.inHand = some testRequestFrame ∧ NoFrameWaits (s 1 4 false []) ∧
    (∀ q ∈ (s 1 4 false []).part.tst.waiting, q.owner ≠ .planner) ∧
    (loopEntryOf (storedFields (s 1 4 false []) .loopCode 7)).valid = true ∧
    role (s 0 4 false []) = .perimeter ∧ role (s 1 4 false []) = .guide ∧ role (s 2 4 true []) = .island ∧
    role (s 3 4 true []) = .foreign ∧ Table.isProtected .zone = false ∧
    (∃ w ∈ bad.mem.readEntry .loopCode 7, w.judge = .uncorrectable) ∧
    kind (s 2 4 true []) = some (.partialWrite .zone 23 4 testZoneFields) ∧
    kind (s 2 4 false []) = none ∧ kind (s 3 255 true []) = none ∧
    kind (s 0 255 false []) = some (.fullWrite .zone 23 testZoneFields) ∧
    kind (s 0 4 false [.loop 6 true]) = some (.entryRead .loopCode 6) ∧
    kind (s 0 4 false [.fail]) = none ∧ (testAfter .entryReadDone bad).fcu.mode = .safe := by
  unfold ReadGranted Sound NoFrameWaits
  decide +kernel

/-- The transfer of a frame of contact, in each dock state, at its limits; the end of a PAUSE in DOCKING. -/
theorem test_meets_dock :
    let s := fun mode final settle attempts => testState fun p => { p with
      fcu.mode := mode
      rtu.activity := if mode = .docking then .approach else .none
      rtu.finalApproach := final
      rtu.settle := settle
      rtu.attempts := attempts }
    let frame := fun contact => Instr.environmentFrame ⟨true, 4, true⟩ 100 32767 contact
    let last := State.reset.part.rtu.params.threshold - 1
    let pause := fun attempts => testState fun p => { p with
      fcu.mode := .maneuver
      fcu.resume := some .docking
      hre.active := some (testActive .pause 0)
      rtu.attempts := attempts }
    let retries := (pause 0).part.rtu.params.retries
    NoFrameWaits (s .docking true 0 0) ∧ (s .docking true 0 0).part.rtu.activity = .approach ∧
    State.reset.part.rtu.params.threshold ≤ 20000 ∧ last < State.reset.part.rtu.params.threshold ∧
    State.reset.part.rtu.params.settle = 3 ∧ NoResponse (s .docked false 2 0) ∧
    (testAfter (frame 20000) (s .docking false 9 0)).rtu.settle = 1 ∧
    (testAfter (frame 20000) (s .docking true 1 0)).rtu.settle = 2 ∧
    (testAfter (frame 20000) (s .docking true 2 0)).fcu.mode = .docked ∧
    (testAfter (frame last) (s .docking true 2 4)).rtu.attempts = 5 ∧
    (testAfter (frame last) (s .docking false 2 4)).rtu.attempts = 4 ∧
    (testAfter (frame 20000) (s .docked false 2 0)).rtu.settle = 0 ∧
    (testAfter (frame last) (s .docked false 1 0)).rtu.settle = 2 ∧
    (testAfter (frame last) (s .docked false 2 0)).fcu.mode = .idle ∧
    0 < retries ∧ NoFrameWaits (pause 0) ∧ (testActive .pause 0).timer ≠ none ∧
    (pause 0).part.hre.pending = none ∧
    (testAfter .responseHoldExpiry (pause (retries - 1))).fcu.mode = .docking ∧
    (testAfter .responseHoldExpiry (pause retries)).fcu.stopCause = .dockFailed := by
  unfold NoFrameWaits NoResponse
  decide +kernel

/-- Period expiries that credit 5 mm with the carry: of a segment below its length, at it and past it, alone and
before another, a PAUSE, a SPIN, and speed 0; of a standstill; and with a PAUSE in force. -/
theorem test_meets_period_credit :
    let s := fun (queue : List Segment) progress => testState fun p => { p with
      fcu.mode := .run
      sq.queue := queue
      sq.active := true
      sq.refillArmed := true
      sq.starvedArmed := true
      msh.progress := progress
      msh.progressCarry := 1
      msh.credited := some (.segment 0)
      msh.wheels.left.distance := 4
      msh.wheels.right.distance := 6 }
    let g : Segment := { testSegment.record with length := 9, id := 1 }
    let p := fun queue progress => testAfter .shaperPeriod (s queue progress)
    let held : State := { s [g] 3 with part := { (s [g] 3).part with
      fcu.mode := .maneuver
      fcu.resume := some .run
      hre.active := some (testActive .pause 9) } }
    let kinds := fun q : Part => q.nco.classes.motion.entries.map (·.kind)
    NoFrameWaits (s [g] 3) ∧ (s [g] 3).part.hre.pending = none ∧ (s [g] 3).part.hre.active = none ∧
    (s [g] 3).part.fcu.mode = .run ∧ (s [g] 3).part.sq.active = true ∧
    (s [g] 3).part.motionSource = some (.segment g.key) ∧ g.key = 0 ∧
    State.reset.part.motionSource = none ∧ NoFrameWaits held ∧
    (p [g] 3).msh.progress = 8 ∧ (p [g] 3).msh.progressCarry = 1 ∧
    (p [{ g with length := 0 }] 3).msh.progress = 8 ∧
    (p [{ g with shape := .pause, length := 100 }] 3).msh.progress = 23 ∧
    (p [{ g with speed := 0 }] 3).msh.progress = 3 ∧
    (p [{ g with shape := .spin .left }] 3).msh.progress = 8 ∧
    (p [g] 4).sq.queue = [] ∧ (p [g] 4).sq.active = false ∧ kinds (p [g] 4) = [.segDone, .refill, .starved] ∧
    (p [g, g] 4).sq.queue = [g] ∧ (p [g, g] 4).msh.progress = 0 ∧ (p [g, g] 4).sq.active = true ∧
    (testAfter .shaperPeriod held).msh.progress = 3 := by
  unfold NoFrameWaits
  decide +kernel

/-- Period expiries that credit 5 mm to a leg, in its start zone and out of it, within its search distance and
past it, and to a dock approach and a backoff, below their lengths and at them, with an attempt left and with
none. -/
theorem test_meets_return_credit :
    let move := fun p : Part => { p with
      msh.wheels.left.distance := 4
      msh.wheels.right.distance := 6 }
    let leg := fun zone follow search => testState fun p => { move p with
      fcu.mode := .homing
      ltr.zone := zone
      rtu.leg := some
        { key := 0, passage := 1, start := 4, target := 5, guideLoop := 2, interior := .left, offset := 0
          speed := 200, holdThrough := false, follow := follow, distance := 9, search := search } }
    let dock := fun activity distance attempts => testState fun p => { move p with
      fcu.mode := .docking
      rtu.activity := activity
      rtu.distance := distance
      rtu.attempts := attempts }
    let retries := State.reset.part.rtu.params.retries
    let limit := State.reset.part.rtu.params.approachLimit
    let backoff := State.reset.part.rtu.params.backoff
    let p := testAfter .shaperPeriod
    NoFrameWaits (leg none false 14) ∧ (leg none false 14).part.hre.pending = none ∧
    (leg none false 14).part.hre.active = none ∧ (leg none false 14).part.rtu.crossings = [] ∧
    (leg none false 14).part.rtu.applying = none ∧ (leg none false 14).part.rtu.planning = none ∧
    NoFrameWaits (dock .approach 0 0) ∧ (dock .approach 0 0).part.hre.active = none ∧ 0 < retries ∧
    5 < limit ∧ 5 < backoff ∧
    (p (leg none false 14)).rtu.leg.map (·.distance) = some 14 ∧
    (p (leg (some 4) true 13)).rtu.leg.map (·.distance) = some 14 ∧
    (p (leg none false 13)).fcu.stopCause = .homeFailed ∧
    (p (leg (some 5) false 14)).rtu.planning = some ⟨5, .settings⟩ ∧
    (p (dock .approach (limit - 6) 0)).rtu.distance = limit - 1 ∧
    (p (dock .approach (limit - 5) 0)).rtu.activity = .backoff ∧
    (p (dock .backoff (backoff - 6) 0)).rtu.distance = backoff - 1 ∧
    (p (dock .backoff (backoff - 5) (retries - 1))).rtu.activity = .approach ∧
    (p (dock .backoff (backoff - 5) retries)).fcu.stopCause = .dockFailed := by
  unfold NoFrameWaits
  decide +kernel

/-- An entry that joins an empty class, one that fills it to its batch limit, one that is lost from a full
class, and one that waits for the class's previous NOTICE. -/
theorem test_meets_entries_join :
    let s := fun n batch tx => (testState fun p => { p with
      plp.tx := tx
      nco.classes.field.batch := batch
      nco.classes.field.entries := List.replicate n ⟨.keepState, 0, 1, 9⟩ }).part
    let b := fun p : Part => (p.addEntry .keepState 0 1).nco.classes.field
    EntryKind.keepState.noticeClass = .field ∧
    (b (s 0 12 [])).entries.length = 1 ∧ (b (s 0 12 [])).holdTimer ≠ none ∧
    (b (s 10 12 [])).entries.length = 11 ∧ (b (s 11 12 [])).entries = [] ∧ (b (s 0 1 [])).entries = [] ∧
    ((s 1 2 []).addEntry .keepState 0 1).plp.tx =
      [.notice .field false [⟨.keepState, 0, 1, 9⟩, ⟨.keepState, 0, 1, 0⟩]] ∧
    (b (s 12 12 [.notice .field false []])).due = true ∧ (b (s 12 12 [.notice .field false []])).gap = true ∧
    (b (s 12 12 [.notice .field false []])).entries.length = 12 ∧
    (b (s 0 12 [.notice .field false []])).due = false ∧
    ((s 0 12 []).addEntryUrgent true .keepState 0 1).plp.tx ≠ [] := by decide +kernel

/-- The settings reads behind a reset, of an entry that is sound, poisoned and uncorrectable, and writes of the
settings that start the scrub timer and stop it. -/
theorem test_meets_copies :
    let v := fun period => ((defaultFields .settings).set 0 700).set 45 period
    let s := fun owner reader poisoned mem => { testAccess owner (.entryRead .settings 0) reader fun p =>
        { p with tst.poisoned := p.tst.poisoned.put .settings 0 poisoned } with mem := mem }
    let stored := fun period => testMemory .settings 0 (v period)
    let write := fun period => testAccess .planner (.fullWrite .settings 0 (v period)) .plannerWrite fun p =>
      { p with plp.rx := [testRequestFrame] }
    let copies := s .copies .ruleWalk false (stored 9)
    let scrub := fun period => s .scrubCopy .scrub false (stored period)
    let bad := s .copies .ruleWalk false (Memory.write [] (wordNumber .settings 0 0) ⟨3, 0⟩)
    ReadGranted copies .copies .settings 0 .ruleWalk ∧ Sound copies .settings 0 ∧ NoFrameWaits copies ∧
    ReadGranted (scrub 9) .scrubCopy .settings 0 .scrub ∧ Sound (scrub 0) .settings 0 ∧
    (s .copies .ruleWalk true []).part.tst.poisoned.settings = true ∧
    (∃ w ∈ bad.mem.readEntry .settings 0, w.judge = .uncorrectable) ∧
    (write 9).part.plp.inHand = some testRequestFrame ∧ NoFrameWaits (write 9) ∧
    ScrubStarted { scrub 9 with part := testAfter .entryReadDone (scrub 9) } 9 ∧
    ScrubStarted { scrub 0 with part := testAfter .entryReadDone (scrub 0) } 0 ∧
    (testAfter .entryReadDone copies).fcu.keepLimit = 700 ∧
    (testAfter .entryReadDone bad).fcu.keepLimit = 500 ∧
    BusCopiesHold { write 9 with part := testAfter .fullEntryWriteDone (write 9) } (v 9) ∧
    ScrubStarted { write 9 with part := testAfter .fullEntryWriteDone (write 9) } 9 := by
  unfold ReadGranted Sound NoFrameWaits BusCopiesHold ScrubStarted
  decide +kernel

/-- A partial write of the settings entry that names one field. -/
theorem test_meets_partial_settings :
    let s := testAccess .planner (.partialWrite .settings 0 1 ((defaultFields .settings).set 0 700)) .plannerWrite
      fun p => { p with plp.rx := [testRequestFrame] }
    let new := entryAfter .settings 1 (storedFields s .settings 0) ((defaultFields .settings).set 0 700)
    (∀ w ∈ touchedWords .settings 1, (s.mem.read (wordNumber .settings 0 w)).syndrome = 0) ∧
    mergedOk .settings 1 new = true ∧ s.part.plp.inHand = some testRequestFrame ∧ NoFrameWaits s ∧
    CopiesHold { s with part := testAfter .partialWriteDone s } new := by
  unfold NoFrameWaits CopiesHold
  decide +kernel

/-- The read of a rule that does not match, before the end of the table and at it, of a SKIP_NEXT rule near the
end, of one that takes with NONE, and of an uncorrectable one, by a BUMP_C walk and by an OUTSIDE walk, in a
moving mode and in another, with a walk waiting and with none. -/
theorem test_meets_rule_reads :
    let w := fun source i => Walk.mk ⟨source, 1, 1⟩ none .run i
    let s := fun mode source i fields queue => { testAccess .walk (.entryRead .rule i) .ruleWalk fun p =>
        { p with fcu.mode := mode, hre.walk := some (w source i), hre.queue := queue, tst.waiting := [] } with
      mem := testMemory .rule i fields }
    let none' := testRuleFields.set 0 0
    let skip := testRuleFields.set 6 1
    let nothing := testRuleFields.set 9 6
    let bad := { s .run .outside 9 none' [] with mem := Memory.write [] (wordNumber .rule 9 0) ⟨3, 0⟩ }
    let next := fun x : State => (testAfter .entryReadDone x).hre.walk.map fun w => (w.request.source, w.index)
    let fields := fun x : State => storedFields x .rule 9
    ReadGranted (s .run .bumpC 63 none' []) .walk .rule 63 .ruleWalk ∧ Sound (s .run .bumpC 63 none' []) .rule 63 ∧
    (s .run .bumpC 63 none' []).part.hre.walk = some (w .bumpC 63) ∧ NoFrameWaits (s .run .bumpC 63 none' []) ∧
    ruleMatches (fields (s .run .bumpC 9 none' [])) (w .bumpC 9) = false ∧
    ruleMatches (fields (s .run .bumpC 9 skip [])) (w .bumpC 9) = true ∧
    valueAt (fields (s .run .bumpC 9 skip [])) 6 = 1 ∧
    valueAt (fields (s .run .bumpC 9 nothing [])) 6 = 0 ∧
    valueAt (fields (s .run .bumpC 9 nothing [])) 9 = 6 ∧
    next (s .run .bumpC 62 none' []) = some (.bumpC, 63) ∧ next (s .run .bumpC 63 none' []) = none ∧
    next (s .run .bumpC 61 skip []) = some (.bumpC, 63) ∧ next (s .run .bumpC 62 skip []) = none ∧
    next (s .run .bumpC 63 skip [⟨.lift, 2, 1⟩]) = some (.lift, 0) ∧ next (s .run .bumpC 9 nothing []) = none ∧
    next (s .idle .outside 63 none' []) = none ∧ (s .idle .outside 63 none' []).part.fcu.mode.moving = false ∧
    (testAfter .entryReadDone (s .run .outside 63 none' [])).fcu.stopCause = .outsideBuiltin ∧
    (s .run .outside 63 none' []).part.fcu.resume ≠ some .docking ∧
    (testAfter .entryReadDone (s .idle .outside 63 none' [])).fcu.mode = .idle ∧
    (∃ word ∈ bad.mem.readEntry .rule 9, word.judge = .uncorrectable) ∧ next bad = none ∧
    (testAfter .entryReadDone bad).fcu.stopCause = .tableFault := by
  unfold ReadGranted Sound NoFrameWaits
  decide +kernel

/-- A frame result that loses a PERIMETER loop, that takes it OUT, that changes nothing, and that takes a GUIDE
loop into a CROSS state in a known zone; with an evaluation in progress and with none. -/
theorem test_meets_frame_changes :
    let e : LoopEntry := ⟨true, .perimeter, 0, false, 1, 8, 1, 1⟩
    let gone : LoopRead := .entry { e with valid := false }
    let outside := List.replicate 32 (-5 : BitVec 12)
    let s := fun first (f : CoilFrame) before zone eval =>
      testAccess .correlator (.entryRead .loopCode 7) .correlator fun p => { p with
        scr.processing := some ⟨f, first :: List.replicate 6 gone⟩
        ltr.tracks.l0 := before
        ltr.zone := zone
        ltr.eval := eval
        tst.waiting := [] }
    let inside : LoopTrack := { tracked := true, left := { side := some .inside }, combined := .inside }
    let lost := s (.entry e) ⟨5, [], []⟩ inside none none
    let out := s (.entry e) ⟨5, outside, outside⟩ inside none none
    let cross := s (.entry e) ⟨5, outside, outside.map (- ·)⟩ inside
    let ev : ZoneEval := ⟨State.reset.part.ltr.states, .scan 4⟩
    let p := testAfter .entryReadDone
    NoFrameWaits lost ∧ ReadGranted lost .correlator .loopCode 7 .correlator ∧ Sound lost .loopCode 7 ∧
    (List.replicate 6 gone).length = 6 ∧ (∃ t, exec .entryReadDone lost = .next t) ∧
    lost.part.sq.active = false ∧ lost.part.hre.pending = none ∧
    (p lost).hre.walk.map (·.request) = some ⟨.wireLost, 0, 0⟩ ∧ (p lost).ltr.tracks.l0.lost = true ∧
    (p lost).nco.classes.field.entries.map (·.value) =
      [Combined.lost.code + 256 * Combined.inside.code + 65536 * 5] ∧
    (p out).hre.walk.map (·.request) = some ⟨.outside, 0, 1⟩ ∧ (p out).ltr.tracks.l0.combined = .outside ∧
    (p lost).ltr.eval.map (·.stage) = some (.scan 0) ∧
    (p (s gone ⟨5, [], []⟩ {} none none)).ltr.eval = none ∧
    ((p (cross none none)).ltr.tracks.l0.combined = .crossLR ∨
      (p (cross none none)).ltr.tracks.l0.combined = .crossRL) ∧
    (p (cross none none)).ltr.eval = none ∧ (p (cross (some 3) none)).ltr.eval.map (·.stage) = some (.held 3) ∧
    (p (cross (some 3) (some ev))).ltr.eval = some ev ∧
    (p (cross (some 3) (some ev))).ltr.reevaluate = true := by
  unfold ReadGranted Sound NoFrameWaits
  refine ⟨?_, ?_, ?_, ?_, ⟨_, rfl⟩, ?_⟩ <;> decide +kernel

/-- The two zone reads of a crossing from zone 4 to zone 23, of a valid zone and an invalid one, with another
crossing waiting and with none, in DOCKED and in another mode; a full stack and a full list. -/
theorem test_meets_crossing_reads :
    let c : Crossing := ⟨2, 4, 23, 7⟩
    let s := fun mode stage i fields crossings => { testAccess .crossing (.entryRead .zone i) .returning fun p =>
        { p with
          fcu.mode := mode
          rtu.applying := some ⟨c, stage⟩
          rtu.crossings := crossings
          rtu.stack := List.replicate 16 ⟨9, 1, 4, 8⟩
          tst.waiting := [] } with
      mem := testMemory .zone i fields }
    let left := s .idle .leaving 4 testZoneFields []
    let entered := fun mode r => s mode (.entering r) 23 testZoneFields
    let p := testAfter .entryReadDone
    let bad := { entered .idle (some 1) [] with mem := Memory.write [] (wordNumber .zone 23 0) ⟨3, 0⟩ }
    ReadGranted left .crossing .zone 4 .returning ∧ Sound left .zone 4 ∧ NoFrameWaits left ∧
    (zoneEntryOf (storedFields left .zone 4)).rank = 3 ∧ left.part.rtu.applying = some ⟨c, .leaving⟩ ∧
    (∃ w ∈ bad.mem.readEntry .zone 23, w.judge = .uncorrectable) ∧ bad.part.rtu.planDue = false ∧
    (p left).rtu.applying = some ⟨c, .entering (some 3)⟩ ∧
    (p (s .idle .leaving 4 (testZoneFields.set 0 0) [])).rtu.applying = some ⟨c, .entering none⟩ ∧
    (p (entered .idle (some 1) [])).rtu.stack = c :: List.replicate 15 ⟨9, 1, 4, 8⟩ ∧
    (p (entered .idle (some 1) [])).rtu.overflow = true ∧
    (p (entered .idle (some 1) [])).nco.classes.field.entries.map (fun e => (e.kind, e.subject, e.value)) =
      [(.stackOverflow, 9, 8)] ∧
    (p (entered .idle (some 3) [])).rtu.stack.length = 16 ∧ (p (entered .idle (some 4) [])).rtu.stack.length = 15 ∧
    (p (entered .idle none [])).rtu.stack.length = 16 ∧ (p (entered .idle none [])).rtu.overflow = false ∧
    (p (entered .docked (some 4) [])).rtu.stack.length = 16 ∧ (p bad).rtu.stack.length = 16 ∧
    (p (entered .idle (some 1) [⟨3, 5, 6, 0⟩])).rtu.applying = some ⟨⟨3, 5, 6, 0⟩, .leaving⟩ := by
  unfold ReadGranted Sound NoFrameWaits
  decide +kernel

/-- A crossing found while another is applied, with the list below its four places, full, and full with the flag
set, and in DOCKED. -/
theorem test_meets_full_list :
    let ev : ZoneEval := ⟨State.reset.part.ltr.states, .lookup ⟨23, 2, 4⟩ 31⟩
    let s := fun mode n overflow => { testAccess .zoneEval (.entryRead .passage 31) .zoneEval fun p =>
        { p with
          fcu.mode := mode
          ltr.eval := some ev
          ltr.zone := some 4
          rtu.applying := some ⟨⟨0, 1, 2, 3⟩, .leaving⟩
          rtu.crossings := List.replicate n ⟨9, 1, 4, 8⟩
          rtu.overflow := overflow } with
      mem := testMemory .passage 31 [1, 23, 4, 0, 0, 0, 300, 0] }
    let kinds := fun x => (testAfter .entryReadDone x).nco.classes.field.entries.map (·.kind)
    let list := fun x => (testAfter .entryReadDone x).rtu.crossings.map (·.passage)
    ReadGranted (s .idle 4 false) .zoneEval .passage 31 .zoneEval ∧ Sound (s .idle 4 false) .passage 31 ∧
    (s .idle 4 false).part.ltr.eval = some ev ∧ (s .idle 4 false).part.sq.active = false ∧
    NoFrameWaits (s .idle 4 false) ∧ (s .idle 4 false).part.rtu.applying ≠ none ∧
    (passageEntryOf (storedFields (s .idle 4 false) .passage 31)).joins 4 23 = true ∧
    list (s .idle 3 false) = [9, 9, 9, 31] ∧ kinds (s .idle 3 false) = [.zoneChanged, .crossing] ∧
    list (s .idle 4 false) = [9, 9, 9, 31] ∧
    kinds (s .idle 4 false) = [.zoneChanged, .stackOverflow, .crossing] ∧
    kinds (s .idle 4 true) = [.zoneChanged, .crossing] ∧ list (s .docked 4 false) = [9, 9, 9, 9] := by
  unfold ReadGranted Sound NoFrameWaits
  decide +kernel

/-- A full stack and a push between equal ranks, and the exact reversal; two peaks and a FOREIGN one. -/
theorem test_meets_overflow_and_peaks :
    let p : Part := { rtu.stack := List.replicate 16 ⟨4, 2, 5, 0⟩ }
    let code : BitVec 32 := 0xF0F0A5C3
    let samples : List (BitVec 12) := (List.range 32).map fun i => if code.getLsbD i then -7 else 9
    let e : LoopEntry := ⟨true, .foreign, code, false, 1, 8, 1, 1⟩
    (p.applyCrossing ⟨1, 5, 9, 0⟩ 3 3).rtu.overflow = true ∧
    (p.applyCrossing ⟨1, 5, 2, 0⟩ 3 3).rtu.overflow = false ∧
    (p.applyCrossing ⟨1, 5, 2, 0⟩ 3 3).rtu.stack.length = 15 ∧ p.rtu.stack.getLast? = some ⟨4, 2, 5, 0⟩ ∧
    (coilPeak e samples).shift = 0 ∧ (coilPeak e samples).value = 256 ∧
    foreignPeaks samples [.unreadable, .entry { e with role := .guide }, .entry e] = [256] := by decide +kernel

end
end

