-- ==== Sys2Proof/Proofs/LoopTracking.lean ====
section
/-! SUPPORT. Loop tracking, zones and passages: when a pattern matches, what the coil-stale effect leaves of each
loop, that a walk asked for in an event is still asked for behind it, and the statements of the family. -/

namespace Sys2Proof.LoopTracking

open Machine

/-! ### Zone patterns (R64) -/

theorem mem_loopIndices (i : Fin 8) : i ∈ loopIndices := by
  revert i
  decide

theorem nodup_loopIndices : loopIndices.Nodup := by decide

/-- The states that the three listed pattern values accept (R64). -/
theorem patternAccepts_iff (value : Nat) (c : Combined) (listed : value ≤ 2) :
    patternAccepts value c = true ↔
      value = 0 ∨ (value = 1 ∧ c = .inside) ∨
        (value = 2 ∧ (c = .outside ∨ c = .unseen ∨ c = .lost)) := by
  match value, listed with
  | 0, _ => simp [patternAccepts]
  | 1, _ => simp [patternAccepts]
  | 2, _ => simp [patternAccepts, or_assoc]

theorem patternMatches_iff (e : ZoneEntry) (states : Eight Combined) :
    patternMatches e states = true ↔
      ∀ i : Fin 8, patternAccepts (e.patternAt i.val) (states.get i) = true := by
  simp [patternMatches, mem_loopIndices]

/-- Settles O56: each loop accepts its value, and the listed values accept the states that R64 lists. -/
theorem patternMatchesEveryLoop : Obligations.PatternMatchesEveryLoop := by
  intro e states listed
  rw [patternMatches_iff]
  exact forall_congr' fun i => patternAccepts_iff _ _ (listed i.val i.isLt)

/-! ### One of eight loops -/

theorem Eight_get_set {α : Type} (t : Eight α) (i j : Fin 8) (a : α) :
    (t.set i a).get j = if j = i then a else t.get j := by
  match i with
  | 0 | 1 | 2 | 3 | 4 | 5 | 6 | 7 =>
    match j with
    | 0 | 1 | 2 | 3 | 4 | 5 | 6 | 7 => rfl

theorem Eight_set_get {α : Type} (t : Eight α) (i : Fin 8) : t.set i (t.get i) = t := by
  match i with
  | 0 | 1 | 2 | 3 | 4 | 5 | 6 | 7 => rfl

/-! ### The coil-stale effect on the tracks (R50) -/

/-- What the coil-stale effect makes of one loop's record (R50). -/
def lostWhenStale (t : LoopTrack) : LoopTrack :=
  if t.tracked && !t.lost then t.lose.settleCombined else t

/-- Settling the combined state touches no field that it is computed from. -/
@[simp] theorem settleCombined_keeps (t : LoopTrack) :
    t.settleCombined.lost = t.lost ∧ t.settleCombined.left = t.left ∧ t.settleCombined.right = t.right := by
  unfold LoopTrack.settleCombined
  split <;> exact ⟨rfl, rfl, rfl⟩

@[simp] theorem settleCombined_combined (t : LoopTrack) : t.settleCombined.combined = t.combinedNow := by
  unfold LoopTrack.settleCombined
  split
  next same => exact same.symm
  next => rfl

/-- A tracked loop that is not lost is lost, both its sides UNSEEN (R49 to R51). -/
theorem lostWhenStale_of_tracked (t : LoopTrack) (tracked : t.tracked = true) (seen : t.lost = false) :
    (lostWhenStale t).lost = true ∧ (lostWhenStale t).combined = .lost ∧
      (lostWhenStale t).left.side = none ∧ (lostWhenStale t).right.side = none := by
  simp [lostWhenStale, tracked, seen, LoopTrack.lose, LoopTrack.combinedNow]

theorem staleLoop_tracks (i : Fin 8) (p : Part) :
    (p.staleLoop i).ltr.tracks = p.ltr.tracks.set i (lostWhenStale (p.ltr.tracks.get i)) := by
  unfold Part.staleLoop lostWhenStale
  dsimp only
  split
  · split <;> simp
  · exact (Eight_set_get _ i).symm

/-- Of the loops listed, each once, every one meets the effect; the others are left. -/
theorem staleLoops_tracks (l : List (Fin 8)) (once : l.Nodup) (p : Part) (j : Fin 8) :
    (l.foldl (fun q i => q.staleLoop i) p).ltr.tracks.get j =
      if j ∈ l then lostWhenStale (p.ltr.tracks.get j) else p.ltr.tracks.get j := by
  induction l generalizing p with
  | nil => simp
  | cons i is ih =>
    obtain ⟨apart, once'⟩ := List.nodup_cons.mp once
    rw [List.foldl_cons, ih once', staleLoop_tracks, Eight_get_set]
    by_cases h : j = i
    · subst h
      simp [apart]
    · simp [h]

theorem coilStale_tracks (p : Part) (i : Fin 8) :
    p.coilStale.ltr.tracks.get i = lostWhenStale (p.ltr.tracks.get i) := by
  have folded := staleLoops_tracks loopIndices nodup_loopIndices p i
  rw [if_pos (mem_loopIndices i)] at folded
  unfold Part.coilStale
  dsimp only
  split
  · simpa using folded
  · exact folded

/-! ### A walk that has been asked for (R139) -/

/-- A walk request waits in the walk queue or is being walked: `WalkRequested`, of the part alone. -/
def WalkAsked (r : WalkRequest) (p : Part) : Prop :=
  r ∈ p.hre.queue ∨ p.hre.walk.map (·.request) = some r

theorem walkRequested_iff (t : State) (source : Source) (subject : Nat) (value : Int) :
    WalkRequested t source subject value ↔ WalkAsked ⟨source, subject, value⟩ t.part := Iff.rfl

/-- Whether a walk is asked for depends on the walk queue and the walk in progress only. -/
theorem WalkAsked.of_same {r : WalkRequest} {p q : Part} (asked : WalkAsked r p)
    (queue : q.hre.queue = p.hre.queue) (walk : q.hre.walk = p.hre.walk) : WalkAsked r q := by
  unfold WalkAsked
  rwa [queue, walk]

theorem mem_joinWalkQueue_self (r : WalkRequest) (l : List WalkRequest) : r ∈ joinWalkQueue r l := by
  induction l with
  | nil => simp [joinWalkQueue]
  | cons q qs ih =>
    unfold joinWalkQueue
    split
    next same =>
      obtain ⟨source, subject⟩ := same
      simp [source, subject]
    next => exact List.mem_cons_of_mem q ih

/-- Only a waiting request of the same pair is replaced. -/
theorem mem_joinWalkQueue_of_mem {r q : WalkRequest} {l : List WalkRequest} (waits : q ∈ l)
    (other : ¬(q.source = r.source ∧ q.subject = r.subject)) : q ∈ joinWalkQueue r l := by
  induction l with
  | nil => exact absurd waits List.not_mem_nil
  | cons x xs ih =>
    unfold joinWalkQueue
    rcases List.mem_cons.mp waits with rfl | behind
    · rw [if_neg other]
      exact List.mem_cons_self
    · split
      · exact List.mem_cons_of_mem _ behind
      · exact List.mem_cons_of_mem _ (ih behind)

theorem walkAsked_requestWalk (source : Source) (subject : Nat) (value : Int) (p : Part) :
    WalkAsked ⟨source, subject, value⟩ (p.requestWalk source subject value) :=
  .inl (mem_joinWalkQueue_self _ _)

theorem WalkAsked.requestWalk {r : WalkRequest} {p : Part} (asked : WalkAsked r p) {source : Source}
    (subject : Nat) (value : Int) (other : r.source ≠ source) :
    WalkAsked r (p.requestWalk source subject value) :=
  asked.imp (fun waits => mem_joinWalkQueue_of_mem waits fun same => other same.1) id

/-- The walk that begins is that of the request at the head of the queue. -/
theorem WalkAsked.beginWalk {r : WalkRequest} {p : Part} (asked : WalkAsked r p) :
    WalkAsked r p.beginWalk := by
  unfold Part.beginWalk
  split
  next q rest idle queue =>
    rcases asked with waits | walked
    · rw [queue] at waits
      rcases List.mem_cons.mp waits with rfl | behind
      · exact .inr rfl
      · exact .inl behind
    · simp [idle] at walked
  next => exact asked

theorem WalkAsked.passIf {r : WalkRequest} {p : Part} (mark : Bool) (pass : Part → Part)
    (asked : WalkAsked r p) (kept : ∀ q, WalkAsked r q → WalkAsked r (pass q)) :
    WalkAsked r (p.passIf mark pass) := by
  cases mark with
  | false => exact asked
  | true => exact kept p asked

theorem WalkAsked.settle {r : WalkRequest} {p : Part} (asked : WalkAsked r p) : WalkAsked r p.settle := by
  have moved : WalkAsked r p.settleMotion := asked.of_same (by simp) (by simp)
  have granted : WalkAsked r p.settleMotion.settleGrants :=
    ((moved.passIf _ _ fun q h => h.of_same (by simp) (by simp)).passIf _ _ fun q h => h.beginWalk).passIf _ _
      fun q h => h.of_same (by simp) (by simp)
  exact granted

theorem WalkAsked.serveFrom {r : WalkRequest} (n : Nat) {p : Part} (asked : WalkAsked r p) :
    WalkAsked r (p.serveFrom n) := by
  induction n generalizing p with
  | zero => exact asked
  | succ n ih =>
    unfold Part.serveFrom
    split
    · split
      next f _ =>
        have taken : WalkAsked r (p.takeNext f) := asked.of_same (by simp) (by simp)
        exact ih taken.settle
      next => exact asked
    · exact asked

theorem WalkAsked.serve {r : WalkRequest} {p : Part} (asked : WalkAsked r p) : WalkAsked r p.serve :=
  asked.serveFrom _

/-- A walk that the effect of an event asks for is asked for behind the event. -/
theorem WalkAsked.runEvent {r : WalkRequest} {f : Part → Part} {p : Part} (asked : WalkAsked r (f p.begin)) :
    WalkAsked r (p.runEvent f) :=
  asked.settle.serve.of_same (by simp [Part.runEvent]) (by simp [Part.runEvent])

/-! ### What an event leaves of sensing -/

/-- Behind its effect an event touches neither the sense nodes nor the correlator nor the tracker. -/
theorem runEvent_sensing (f : Part → Part) (p : Part) :
    (p.runEvent f).sin = (f p.begin).sin ∧ (p.runEvent f).scr = (f p.begin).scr ∧
      (p.runEvent f).ltr = (f p.begin).ltr := by
  simp [Part.runEvent]

/-! ### A freshness timer expires (R136) -/

theorem WalkAsked.staleLoop {r : WalkRequest} {p : Part} (asked : WalkAsked r p) (other : r.source ≠ .wireLost)
    (i : Fin 8) : WalkAsked r (p.staleLoop i) := by
  unfold Part.staleLoop
  dsimp only
  split
  · refine WalkAsked.requestWalk ?_ _ _ other
    split
    · exact asked
    · exact asked.of_same (by simp) (by simp)
  · exact asked

theorem WalkAsked.coilStale {r : WalkRequest} {p : Part} (asked : WalkAsked r p) (other : r.source ≠ .wireLost) :
    WalkAsked r p.coilStale := by
  have folded : WalkAsked r (loopIndices.foldl (fun q i => q.staleLoop i) p) :=
    List.foldlRecOn loopIndices _ asked fun q h i _ => h.staleLoop other i
  unfold Part.coilStale
  dsimp only
  split
  · exact folded.of_same (by simp) (by simp)
  · exact folded

/-- What the expiry does for every node: the timer stops, the stale mark is set, the walk is requested (R136). -/
def markStale (n : Fin 5) (p : Part) : Part :=
  { p with sin.timers := p.sin.timers.set n none, sin.stale := p.sin.stale.set n true }
    |>.requestWalk .sensorStale n.val n.val

/-- Behind the marks only the coil node and the environment node have an effect of their own (R50, R170). -/
theorem sensorStale_running (n : Fin 5) (p : Part) (running : p.sin.timers.get n ≠ none) :
    (n = 0 ∧ p.sensorStale n = (markStale n p).coilStale) ∨
      (n ≠ 0 ∧ p.sensorStale n = (markStale n p).environmentStale) ∨
      (n ≠ 0 ∧ p.sensorStale n = markStale n p) := by
  obtain ⟨k, hk⟩ := Option.ne_none_iff_exists'.mp running
  unfold Part.sensorStale
  rw [hk]
  match n with
  | 0 => exact .inl ⟨rfl, rfl⟩
  | 4 => exact .inr (.inl ⟨by decide, rfl⟩)
  | 1 | 2 | 3 => exact .inr (.inr ⟨by decide, rfl⟩)

theorem sensorStale_sin (n : Fin 5) (p : Part) (running : p.sin.timers.get n ≠ none) :
    (p.sensorStale n).sin =
      { p.sin with timers := p.sin.timers.set n none, stale := p.sin.stale.set n true } := by
  rcases sensorStale_running n p running with ⟨-, e⟩ | ⟨-, e⟩ | ⟨-, e⟩ <;> rw [e] <;> simp [markStale]

theorem sensorStale_walkAsked (n : Fin 5) (p : Part) (running : p.sin.timers.get n ≠ none) :
    WalkAsked ⟨.sensorStale, n.val, n.val⟩ (p.sensorStale n) := by
  have marked : WalkAsked ⟨.sensorStale, n.val, n.val⟩ (markStale n p) := walkAsked_requestWalk ..
  rcases sensorStale_running n p running with ⟨-, e⟩ | ⟨-, e⟩ | ⟨-, e⟩ <;> rw [e]
  · exact marked.coilStale nofun
  · exact marked.of_same (by simp) (by simp)
  · exact marked

/-- No other node than the coil node touches the tracks. -/
theorem sensorStale_tracks_of_other (n : Fin 5) (p : Part) (running : p.sin.timers.get n ≠ none)
    (other : n ≠ 0) : (p.sensorStale n).ltr.tracks = p.ltr.tracks := by
  rcases sensorStale_running n p running with ⟨coil, -⟩ | ⟨-, e⟩ | ⟨-, e⟩
  · exact absurd coil other
  · simp [e, markStale]
  · simp [e, markStale]

/-- A silent coil node loses the loops (R50). -/
theorem sensorStale_tracks_of_coil (p : Part) (running : p.sin.timers.get 0 ≠ none) (i : Fin 8) :
    (p.sensorStale 0).ltr.tracks.get i = lostWhenStale (p.ltr.tracks.get i) := by
  rcases sensorStale_running 0 p running with ⟨-, e⟩ | ⟨other, -⟩ | ⟨other, -⟩
  · rw [e, coilStale_tracks]
    simp [markStale]
  · exact absurd rfl other
  · exact absurd rfl other

/-- Settles O26: the effect sets the marks, asks for the walk and loses the loops of a silent coil node, and the
rest of the event takes none of this back. -/
theorem silentSenseNodeBecomesStale : Obligations.SilentSenseNodeBecomesStale := by
  intro s n _ running
  obtain ⟨sin, scr, ltr⟩ := runEvent_sensing (Part.sensorStale n) s.part
  have asked : WalkRequested (s.event (Part.sensorStale n)) .sensorStale n.val n.val :=
    (walkRequested_iff ..).mpr (sensorStale_walkAsked n s.part.begin running).runEvent
  refine ⟨s.event (Part.sensorStale n), rfl, ?_, asked, ?_, ?_, ?_, rfl, rfl⟩
  · exact sin.trans (sensorStale_sin n s.part.begin running)
  · intro other
    exact (congrArg Ltr.tracks ltr).trans (sensorStale_tracks_of_other n s.part.begin running other)
  · rintro rfl i tracked seen
    have lost : (s.event (Part.sensorStale 0)).part.ltr.tracks.get i =
        lostWhenStale (s.part.ltr.tracks.get i) :=
      (congrArg (fun l => l.tracks.get i) ltr).trans (sensorStale_tracks_of_coil s.part.begin running i)
    rw [lost]
    exact lostWhenStale_of_tracked _ tracked seen
  · exact scr.trans (by simp [Part.begin])

end Sys2Proof.LoopTracking
end

