-- ==== Sys2Proof/Proofs/SegmentQueue.lean ====
section
/-! SUPPORT. The segment queue: how an event closes behind the last frame it takes, what the store's arbiter leaves of a
request that waits, and the statements of the family: PLAN_APPEND, PLAN_FLUSH, and the invariants at reset. -/

namespace Sys2Proof.SegmentQueue

open Machine

/-! ### The invariants at reset -/

/-- Settles O47: each invariant is read off the reset values. -/
theorem resetIsCanonicalAndQuiet : Obligations.ResetIsCanonicalAndQuiet := by
  have places : ReceiveBounded State.reset ∧ RouteBounded State.reset ∧ QueueBounded State.reset ∧
      NoticesBounded State.reset :=
    ⟨Nat.zero_le _, ⟨Nat.zero_le _, Nat.zero_le _⟩, ⟨Nat.zero_le _, nofun⟩,
      fun c => by cases c <;> exact Nat.zero_le _⟩
  have bus : WriteHasTheBus State.reset := nofun
  have arbiters : ArbitersServed State.reset := ⟨nofun, by decide, fun _ => rfl⟩
  obtain ⟨receive, route, queue, notices⟩ := places
  exact ⟨rfl, rfl, receive, route, queue, notices, nofun, bus, fun _ => rfl, rfl, arbiters⟩

/-! ### The frames of an event (R196) -/

/-- Putting the frames of an event in order neither loses a frame nor makes one. -/
theorem mem_orderFrames (f : TxFrame) (fs : List TxFrame) : f ∈ orderFrames fs ↔ f ∈ fs := by
  cases f with
  | answer | started => simp [orderFrames, noticesOf, otherFrames]
  | notice c => cases c <;> simp [orderFrames, noticesOf, otherFrames]

theorem mem_finish_tx {f : TxFrame} {p : Part} (sent : f ∈ p.plp.tx) : f ∈ p.finish.plp.tx := by
  rw [← List.take_append_drop p.agenda.frames p.plp.tx] at sent
  simpa only [Part.finish, List.mem_append, mem_orderFrames] using sent

/-! ### The end of an event in which no frame waits -/

/-- No frame of the receive buffer waits to be taken: `NoFrameWaits`, of the part alone. -/
def NoneWaits (p : Part) : Prop := ∀ f ∈ p.plp.rx, f.status ≠ .waiting

theorem noFrameWaits_iff (s : State) : NoFrameWaits s ↔ NoneWaits s.part := Iff.rfl

theorem NoneWaits.of_same {p q : Part} (served : NoneWaits p) (same : q.plp.rx = p.plp.rx) : NoneWaits q := by
  unfold NoneWaits
  rwa [same]

/-- An answer marks a frame answered, and none waiting. -/
theorem NoneWaits.answer {p : Part} (served : NoneWaits p) (code : AnswerCode) (data : List Byte) :
    NoneWaits (p.answer code data) := by
  unfold Part.answer
  split
  · intro f hf
    obtain ⟨g, hg, rfl⟩ := List.mem_map.mp hf
    split
    · exact nofun
    · exact served g hg
  · exact served

theorem NoneWaits.grantStoreFrom {p : Part} (served : NoneWaits p) (n : Nat) : NoneWaits (p.grantStoreFrom n) := by
  induction n generalizing p with
  | zero => exact served
  | succ n ih =>
    unfold Part.grantStoreFrom
    split
    · split
      · exact ih (NoneWaits.answer (p := p.removeRequest _) served _ _)
      · split
        · exact ih (p := p.removeRequest _) served
        · exact served
    · exact served

/-- What follows an effect makes no frame wait. -/
theorem NoneWaits.settle {p : Part} (served : NoneWaits p) : NoneWaits p.settle := by
  have moved : NoneWaits p.settleMotion := served.of_same (by simp)
  have pass : ∀ (mark : Bool) (f : Part → Part) (q : Part), NoneWaits q → (NoneWaits q → NoneWaits (f q)) →
      NoneWaits (q.passIf mark f) := by
    intro mark f q hq hf
    cases mark with
    | false => exact hq
    | true => exact hf hq
  exact pass _ _ _ (pass _ _ _ (pass _ _ _ moved fun h => h.of_same (by simp)) fun h => h.of_same (by simp))
    fun h => h.grantStoreFrom _

/-- The end of an event behind its last frame. -/
def closed (p : Part) : Part := p.settle.conclude.finish

theorem serveFrom_settle {p : Part} (served : NoneWaits p) (n : Nat) : p.settle.serveFrom n = p.settle :=
  Part.serveFrom_of_no_frame _ _ (Plp.nextFrame_of_none_waits _ served.settle)

theorem runEvent_eq_closed {effect : Part → Part} {p : Part} (served : NoneWaits (effect p.begin)) :
    p.runEvent effect = closed (effect p.begin) := by
  unfold Part.runEvent Part.serve
  rw [serveFrom_settle served]
  rfl

/-- The event of a request's frame that is taken as it arrives (R191 to R193). -/
theorem requestEvent_eq_closed {kind tag : Byte} {body : List Byte} {s : State} (ready : PortReady s)
    (served : NoneWaits ((s.part.requestTaken kind tag body).takeFrame kind body)) :
    s.part.runEvent (Part.requestArrived kind tag body) =
      closed ((s.part.requestTaken kind tag body).takeFrame kind body) := by
  rw [Part.request_event kind tag body s ready, serveFrom_settle served]
  rfl

theorem noneWaits_requestTaken {s : State} (ready : PortReady s) (kind tag : Byte) (body : List Byte) :
    NoneWaits (s.part.requestTaken kind tag body) := by
  intro f hf
  have old := ready.2.1
  simp only [Part.requestTaken, List.mem_append, List.mem_singleton] at hf
  rcases hf with hf | rfl
  · simp [old f hf]
  · simp

/-! ### The store's arbiter on requests that it grants (R177) -/

theorem mem_of_nextRequest {l : List Request} {q : Request} (next : nextRequest l = some q) : q ∈ l := by
  cases l with
  | nil => exact nomatch next
  | cons a as =>
    obtain ⟨r, hr, found⟩ := Laws.nextRequest_cons a as
    rw [found] at next
    exact Option.some.inj next ▸ hr

/-- Where no waiting request is refused by the mode, the arbiter changes nothing but the store's own state. -/
theorem grantStoreFrom_eq (n : Nat) (p : Part)
    (unrefused : ∀ q ∈ p.tst.waiting, q.modeRefused p.fcu.mode = false) :
    p.grantStoreFrom n = { p with tst := (p.grantStoreFrom n).tst } := by
  induction n generalizing p with
  | zero => rfl
  | succ n ih =>
    unfold Part.grantStoreFrom
    split
    next q _ next =>
      rw [if_neg (by simp [unrefused q (mem_of_nextRequest next)])]
      split
      · exact ih (p.removeRequest q) fun r hr => unrefused r (List.mem_of_mem_erase hr)
      · rfl
    next => rfl

/-- An access has been asked of the store: `AccessRequested`, of the part alone. -/
def Asked (q : Request) (p : Part) : Prop := q ∈ p.tst.waiting ∨ p.tst.current.map (·.request) = some q

theorem accessRequested_iff (t : State) (owner : Owner) (kind : AccessKind) (reader : Reader) :
    AccessRequested t owner kind reader ↔ Asked ⟨owner, kind, reader⟩ t.part := Iff.rfl

/-- An entry read that has been asked for goes on waiting or is granted: no mode refuses it. -/
theorem Asked.grantStoreFrom {owner : Owner} {t : Table} {i : Nat} {reader : Reader} (n : Nat) {p : Part}
    (asked : Asked ⟨owner, .entryRead t i, reader⟩ p) :
    Asked ⟨owner, .entryRead t i, reader⟩ (p.grantStoreFrom n) := by
  induction n generalizing p with
  | zero => exact asked
  | succ n ih =>
    unfold Part.grantStoreFrom
    split
    next q free next =>
      have waits : ⟨owner, .entryRead t i, reader⟩ ∈ p.tst.waiting := by simpa [Asked, free] using asked
      have left : q ≠ ⟨owner, .entryRead t i, reader⟩ →
          Asked ⟨owner, .entryRead t i, reader⟩ (p.removeRequest q) :=
        fun other => .inl ((List.mem_erase_of_ne other.symm).mpr waits)
      split
      next refused =>
        have other := left (by rintro rfl; exact nomatch refused)
        exact ih (by simpa [Asked] using other)
      next =>
        split
        next withdrawn => exact ih (left (by rintro rfl; exact nomatch withdrawn))
        next =>
          by_cases same : q = ⟨owner, .entryRead t i, reader⟩
          · exact .inr (congrArg some same)
          · exact .inl ((List.mem_erase_of_ne (Ne.symm same)).mpr waits)
    next => exact asked

/-! ### An event that moves nothing -/

/-- Settling, where the passes that change modes and segments change nothing and no period and no walk begins: the
store's arbiter is all that is left. -/
theorem settle_of_still {p : Part} (still : p.settleMotion = p) (period : p.agenda.period = false)
    (walk : p.agenda.walk = false) :
    p.settle =
      let q := p.passIf p.agenda.store Part.grantStore
      { q with
        agenda := { q.agenda with
          deferral := false, returning := false, period := false, walk := false, store := false
          held := q.deferralTest } } := by
  unfold Part.settle
  rw [still]
  simp [Part.settleGrants, period, walk]

/-- The REFILL and STARVED tests have nothing to say: no record has left, and the queue is not found empty (R85, R86). -/
structure QueueStands (p : Part) : Prop where
  removed : p.agenda.removed = false
  starved : p.agenda.starved = false ∨ p.sq.queue ≠ []

theorem QueueStands.of_same {p q : Part} (stands : QueueStands p) (removed : q.agenda.removed = p.agenda.removed)
    (starved : q.agenda.starved = p.agenda.starved) (queue : q.sq.queue = p.sq.queue) : QueueStands q :=
  ⟨removed.trans stands.removed, by rw [starved, queue]; exact stands.starved⟩

theorem QueueStands.refillPass {p : Part} (stands : QueueStands p) : p.passIf p.agenda.removed Part.refillTest = p := by
  rw [stands.removed]
  rfl

theorem QueueStands.starvedPass {p : Part} (stands : QueueStands p) :
    p.passIf p.agenda.starved Part.starvedTest = p := by
  rcases stands.starved with unmarked | filled
  · rw [unmarked]
    rfl
  · cases p.agenda.starved with
    | false => rfl
    | true => simp [Part.starvedTest, filled]

/-- What is decided at the end of the event leaves the queue with its flags. -/
theorem QueueStands.conclude_sq {p : Part} (stands : QueueStands p) : p.conclude.sq = p.sq := by
  have pass : ∀ (mark : Bool) (f : Part → Part) (q : Part), (f q).sq = q.sq → (q.passIf mark f).sq = q.sq := by
    intro mark f q h
    cases mark with
    | false => rfl
    | true => exact h
  unfold Part.conclude
  simp only [stands.refillPass, stands.starvedPass]
  rw [pass _ _ _ (by simp), pass _ _ _ (by simp), pass _ _ _ (by simp)]

/-- Nothing is marked but the port and the store's arbiter. -/
structure Undisturbed (p : Part) : Prop where
  deferral : p.agenda.deferral = false
  returning : p.agenda.returning = false
  period : p.agenda.period = false
  walk : p.agenda.walk = false
  blade : p.agenda.blade = false
  source : p.agenda.source = false
  bus : p.agenda.bus = false
  stands : QueueStands p

/-- No request that waits for the store is refused by the mode (R178). -/
def Unrefused (p : Part) : Prop := ∀ q ∈ p.tst.waiting, q.modeRefused p.fcu.mode = false

/-- The end of an event that is not marked for more: the store's arbiter, and the frames in their order. -/
theorem Undisturbed.closed_eq {p : Part} (u : Undisturbed p) (unrefused : Unrefused p) :
    closed p =
      { p with
        tst := (p.passIf p.agenda.store Part.grantStore).tst
        plp.tx := p.plp.tx.take p.agenda.frames ++ orderFrames (p.plp.tx.drop p.agenda.frames)
        agenda := {} } := by
  have granted : p.passIf p.agenda.store Part.grantStore =
      { p with tst := (p.passIf p.agenda.store Part.grantStore).tst } := by
    cases p.agenda.store with
    | false => rfl
    | true => exact grantStoreFrom_eq _ p unrefused
  have settled := settle_of_still (Part.settleMotion_of_clear p u.deferral u.returning) u.period u.walk
  rw [granted] at settled
  have concluded : p.settle.conclude = p.settle := by
    have stands : QueueStands p.settle := u.stands.of_same (by rw [settled]) (by rw [settled]) (by rw [settled])
    unfold Part.conclude
    simp only [stands.refillPass, stands.starvedPass]
    simp [settled, u.blade, u.source, u.bus]
  unfold closed
  rw [concluded, settled]
  rfl

/-- An entry read that the effect of such an event asks for is asked for behind it. -/
theorem Undisturbed.asked {p : Part} (u : Undisturbed p) (unrefused : Unrefused p) {owner : Owner} {t : Table}
    {i : Nat} {reader : Reader} (asked : Asked ⟨owner, .entryRead t i, reader⟩ p) :
    Asked ⟨owner, .entryRead t i, reader⟩ (closed p) := by
  rw [u.closed_eq unrefused]
  unfold Asked
  dsimp only
  cases p.agenda.store with
  | false => exact asked
  | true => exact asked.grantStoreFrom _

/-- A frame made by the effect of an event is in the transmit list behind it. -/
theorem mem_closed_tx {f : TxFrame} {p : Part} (sent : f ∈ p.plp.tx) : f ∈ (closed p).plp.tx :=
  mem_finish_tx ((Part.conclude_frames _ _ (Part.settle_frames _ _ (List.prefix_refl _))).subset sent)

/-! ### The planner's requests and their answers (R193) -/

/-- With no access of a request waiting, the mode refuses no waiting access. -/
theorem unrefused_of_no_planner {p : Part} (h : ∀ q ∈ p.tst.waiting, q.owner ≠ .planner) : Unrefused p := by
  intro q hq
  unfold Request.modeRefused
  split <;> simp [h q hq]

/-- An entry read asked for is refused by no mode. -/
theorem Unrefused.plannerRead {p : Part} (unrefused : Unrefused p) (op : PlannerOp) (t : Table) (i : Nat)
    (reader : Reader) : Unrefused (p.plannerRead op t i reader) := by
  intro q hq
  rcases List.mem_append.mp hq with old | new
  · exact unrefused q old
  · rw [List.mem_singleton.mp new]
    rfl

theorem asked_plannerRead (op : PlannerOp) (t : Table) (i : Nat) (reader : Reader) (p : Part) :
    Asked ⟨.planner, .entryRead t i, reader⟩ (p.plannerRead op t i reader) :=
  .inl (List.mem_append.mpr (.inr (List.mem_singleton.mpr rfl)))

theorem Undisturbed.plannerRead {p : Part} (u : Undisturbed p) (op : PlannerOp) (t : Table) (i : Nat)
    (reader : Reader) : Undisturbed (p.plannerRead op t i reader) :=
  ⟨u.deferral, u.returning, u.period, u.walk, u.blade, u.source, u.bus, ⟨u.stands.removed, u.stands.starved⟩⟩

/-- An answer to the request in hand. -/
theorem answer_inHand {p : Part} {f : RxFrame} (inHand : p.plp.inHand = some f) (code : AnswerCode)
    (data : List Byte) :
    p.answer code data =
      { p with
        plp.rx := p.plp.rx.map fun g => if g.status = .inHand then { g with status := .answered } else g
        plp.op := none
        plp.tx := p.plp.tx ++ [.answer f.tag code data]
        agenda.port := true } := by
  simp [Part.answer, inHand]

theorem answer_sent {p : Part} {f : RxFrame} (inHand : p.plp.inHand = some f) (code : AnswerCode)
    (data : List Byte) : .answer f.tag code data ∈ (p.answer code data).plp.tx := by
  simp [answer_inHand inHand]

theorem answer_op {p : Part} {f : RxFrame} (inHand : p.plp.inHand = some f) (code : AnswerCode) (data : List Byte) :
    (p.answer code data).plp.op = none := by
  simp [answer_inHand inHand]

theorem answer_source (code : AnswerCode) (data : List Byte) (p : Part) :
    (p.answer code data).agenda.source = p.agenda.source := by
  unfold Part.answer
  split <;> rfl

theorem Undisturbed.answer {p : Part} (u : Undisturbed p) (code : AnswerCode) (data : List Byte) :
    Undisturbed (p.answer code data) where
  deferral := by simp [u.deferral]
  returning := by simp [u.returning]
  period := by simp [u.period]
  walk := by simp [u.walk]
  blade := by simp [u.blade]
  source := (answer_source code data p).trans u.source
  bus := by simp [u.bus]
  stands := u.stands.of_same (by simp) (by simp) (by simp)

theorem Unrefused.answer {p : Part} (unrefused : Unrefused p) (code : AnswerCode) (data : List Byte) :
    Unrefused (p.answer code data) := by
  simpa [Unrefused] using unrefused

/-! ### The carried segments (R71, section 10.5) -/

theorem byte_toNat (n : Nat) : (byte n).toNat = n % 256 := by simp [byte]

/-- A two-byte field is read back from its bytes. -/
theorem ofNat_bytes2 (v : BitVec 16) :
    BitVec.ofNat 16 ((byte (v.toNat / 256)).toNat * 256 + (byte v.toNat).toNat) = v := by
  apply BitVec.eq_of_toNat_eq
  have := v.isLt
  rw [BitVec.toNat_ofNat, byte_toNat, byte_toNat]
  omega

theorem segment_bytes_length (b : SegmentBody) : b.bytes.length = 18 := rfl

/-- A segment body is read back from its bytes. -/
theorem segmentBodyOf_bytes (b : SegmentBody) : segmentBodyOf b.bytes = b := by
  simp only [segmentBodyOf, SegmentBody.bytes, bytes2, field16, byteAt]
  simp [ofNat_bytes2]

/-- The carried segments are read back from a PLAN_APPEND body. -/
theorem segmentBodies_bytes (segments : List SegmentBody) :
    segmentBodies segments.length (segments.flatMap SegmentBody.bytes) = segments := by
  induction segments with
  | nil => rfl
  | cons b bs ih =>
    rw [List.length_cons, List.flatMap_cons, segmentBodies,
      List.take_left' (segment_bytes_length b), List.drop_left' (segment_bytes_length b), segmentBodyOf_bytes, ih]

theorem planAppendBody_length (segments : List SegmentBody) :
    (planAppendBody segments).length = 1 + 18 * segments.length := by
  simp [planAppendBody, segment_bytes_length, List.length_flatMap, List.map_const', Nat.mul_comm, Nat.add_comm]

/-- The count byte of a PLAN_APPEND body that fits a frame. -/
theorem planAppendBody_count {segments : List SegmentBody} (few : segments.length ≤ 13) :
    (byteAt (planAppendBody segments) 0).toNat = segments.length := by
  change (byte segments.length).toNat = _
  rw [byte_toNat]
  omega

/-- PLAN_APPEND goes through its checks in order: mode, count, room, and then the segments (R72, R73). -/
theorem takeFrame_planAppend {segments : List SegmentBody} (few : segments.length ≤ 13) (p : Part) :
    p.takeFrame 3 (planAppendBody segments) =
      if p.fcu.takesAppend = false then p.answer .wrongMode []
      else if segments.length = 0 ∨ 4 < segments.length then p.answer .badValue [255]
      else if 32 - p.sq.queue.length < segments.length then p.answer .queueFull [byte (32 - p.sq.queue.length)]
      else p.appendOn (segments.map SegmentBody.record) (appendChecks 0 segments) := by
  have taken : p.takeFrame 3 (planAppendBody segments) = p.planAppend (planAppendBody segments) := by
    have whole : (planAppendBody segments).length = bodyLength 3 (planAppendBody segments) := by
      rw [planAppendBody_length, bodyLength, planAppendBody_count few]
    exact if_pos whole
  have carried : segmentBodies segments.length ((planAppendBody segments).drop 1) = segments :=
    segmentBodies_bytes segments
  rw [taken]
  unfold Part.planAppend
  simp only [planAppendBody_count few, carried, Config.queuePlaces, Bool.not_eq_true']

/-! ### A request as it is taken -/

theorem requestTaken_inHand {s : State} (ready : PortReady s) (kind tag : Byte) (body : List Byte) :
    (s.part.requestTaken kind tag body).plp.inHand = some ⟨kind, tag, body, .inHand⟩ := by
  have answered : s.part.plp.rx.find? (fun f => f.status == .inHand) = none :=
    List.find?_eq_none.mpr fun f hf => by simp [ready.2.1 f hf]
  change (s.part.plp.rx ++ [RxFrame.mk kind tag body .inHand]).find? (fun f => f.status == .inHand) = _
  rw [List.find?_append, answered]
  rfl

theorem undisturbed_requestTaken (kind tag : Byte) (body : List Byte) (p : Part) :
    Undisturbed (p.requestTaken kind tag body) :=
  ⟨rfl, rfl, rfl, rfl, rfl, rfl, rfl, ⟨rfl, .inl rfl⟩⟩

theorem requestTaken_tst {s : State} (ready : PortReady s) (kind tag : Byte) (body : List Byte) :
    (s.part.requestTaken kind tag body).tst = s.part.tst := by
  obtain ⟨-, -, -, -, -, -, -, -, -, tst, -⟩ := Part.requestTaken_keeps kind tag body s.part ready.1
  exact tst

theorem unrefused_requestTaken {s : State} (ready : PortReady s) (kind tag : Byte) (body : List Byte) :
    Unrefused (s.part.requestTaken kind tag body) := by
  have tst := requestTaken_tst ready kind tag body
  obtain ⟨-, -, -, alone⟩ := ready
  exact unrefused_of_no_planner (by rwa [tst])

/-- The NOTICE of the arrival and the ANSWER stand in the order of R196 already. -/
theorem ordered_requestTaken (kind tag : Byte) (body : List Byte) (p : Part) (answerTag : Byte) (code : AnswerCode)
    (data : List Byte) :
    let tx := (p.requestTaken kind tag body).plp.tx ++ [.answer answerTag code data]
    tx.take p.plp.tx.length ++ orderFrames (tx.drop p.plp.tx.length) = tx := by
  rcases Part.requestTaken_tx kind tag body p with same | ⟨gap, entries, noticed⟩
  · simp [same]
  · simp [noticed]

/-- The whole event of a request whose owner has changed the part, with nothing left to be done of it, and answers at
once. -/
theorem answered_undisturbed {kind tag : Byte} {body data : List Byte} {code : AnswerCode} {s : State}
    (ready : PortReady s) {q : Part} (u : Undisturbed q) (unrefused : Unrefused q)
    (plp : q.plp = (s.part.requestTaken kind tag body).plp) (store : q.agenda.store = false)
    (frames : q.agenda.frames = s.part.plp.tx.length)
    (answers : (s.part.requestTaken kind tag body).takeFrame kind body = q.answer code data) :
    s.part.runEvent (Part.requestArrived kind tag body) =
      { q with
        plp.rx := s.part.plp.rx ++ [RxFrame.mk kind tag body .answered]
        plp.op := none
        plp.tx := (s.part.requestTaken kind tag body).plp.tx ++ [.answer tag code data]
        agenda := {} } := by
  have served : NoneWaits q :=
    (noneWaits_requestTaken ready kind tag body).of_same (congrArg Plp.rx plp)
  have event := requestEvent_eq_closed ready (answers ▸ served.answer code data)
  have answered := Part.answer_taken kind tag body data code q s.part.plp.rx ready.2.1 (by rw [plp]; rfl)
  have ordered := ordered_requestTaken kind tag body s.part tag code data
  rw [answers, (u.answer code data).closed_eq (unrefused.answer code data), answered] at event
  dsimp only at event ordered
  rw [event, store, frames, plp, ordered]
  rfl

/-- A request that its owner makes an operation with an entry read, without a further effect (R193). -/
theorem request_reads {kind tag : Byte} {body : List Byte} {s : State} {op : PlannerOp} {tab : Table} {i : Nat}
    (ready : PortReady s)
    (reads : (s.part.requestTaken kind tag body).takeFrame kind body =
      (s.part.requestTaken kind tag body).plannerRead op tab i .plannerRead) :
    ∃ t, s.request kind tag body = .next t ∧ InHand s t kind tag body op ∧
      AccessRequested t .planner (.entryRead tab i) .plannerRead := by
  have u := (undisturbed_requestTaken kind tag body s.part).plannerRead op tab i .plannerRead
  have unrefused := (unrefused_requestTaken ready kind tag body).plannerRead op tab i .plannerRead
  have served : NoneWaits ((s.part.requestTaken kind tag body).plannerRead op tab i .plannerRead) :=
    noneWaits_requestTaken ready kind tag body
  have event := requestEvent_eq_closed ready (reads ▸ served)
  rw [reads] at event
  have asked := u.asked unrefused (asked_plannerRead op tab i .plannerRead _)
  rw [← event] at asked
  rw [u.closed_eq unrefused] at event
  obtain ⟨fcu, scr, ltr, sq, msh, dbm, sin, hre, rtu, tst, clock, -, -, rx, -, nco⟩ :=
    Part.requestTaken_keeps kind tag body s.part ready.1
  have notices := Part.requestTaken_nco kind tag body s.part
  refine ⟨_, rfl, ?_, (accessRequested_iff ..).mpr asked⟩
  simp only [InHand, Received, KeepRestarted, NoticesKept, BlocksKept, State.event, event]
  exact ⟨rfl, rx, fcu, ⟨nco, notices.1, notices.2⟩,
    ⟨trivial, trivial, clock, scr, ltr, sq, msh, dbm, sin, hre, rtu⟩, trivial⟩

/-! ### The placement of segments (R74, R76) -/

theorem keyed_length (k : Nat) (gs : List Segment) : (keyed k gs).length = gs.length := by
  induction gs generalizing k with
  | nil => rfl
  | cons g gs ih => rw [keyed, List.length_cons, List.length_cons, ih]

/-- The records behind those of the queue, before a head becomes active. -/
def enqueued (gs : List Segment) (p : Part) : Part :=
  { p with
    sq.queue := p.sq.queue ++ keyed p.serial gs
    sq.refillArmed := p.sq.refillArmed || p.sq.refillMark < (p.sq.queue ++ keyed p.serial gs).length
    sq.starvedArmed := true
    serial := p.serial + gs.length
    agenda.starved := true }

theorem place_eq (gs : List Segment) (p : Part) : p.place gs = (enqueued gs p).activateHead := rfl

theorem enqueued_queue_ne {gs : List Segment} (filled : gs ≠ []) (p : Part) : (enqueued gs p).sq.queue ≠ [] := by
  cases gs with
  | nil => exact absurd rfl filled
  | cons g gs => simp [enqueued, keyed]

theorem enqueued_length (gs : List Segment) (p : Part) :
    (enqueued gs p).sq.queue.length = p.sq.queue.length + gs.length := by
  simp [enqueued, keyed_length]

theorem QueueStands.enqueued {p : Part} (stands : QueueStands p) {gs : List Segment} (filled : gs ≠ []) :
    QueueStands (enqueued gs p) :=
  ⟨stands.removed, .inr (enqueued_queue_ne filled p)⟩

theorem Undisturbed.enqueued {p : Part} (u : Undisturbed p) {gs : List Segment} (filled : gs ≠ []) :
    Undisturbed (enqueued gs p) :=
  ⟨u.deferral, u.returning, u.period, u.walk, u.blade, u.source, u.bus, u.stands.enqueued filled⟩

/-- No head becomes active where planned motion is not allowed, or a segment is active already (R76). -/
theorem activateHead_idle {p : Part} (idle : p.fcu.planned = false ∨ p.sq.active = true) : p.activateHead = p := by
  unfold Part.activateHead
  cases p.sq.queue.length with
  | zero => rfl
  | succ n =>
    unfold Part.activateFrom
    split
    · rfl
    · rw [if_neg]
      rcases idle with still | active
      · simp [still]
      · simp [active]

/-- A head that is no marker becomes the active segment (R76). -/
theorem activateHead_of_head {p : Part} {g : Segment} {more : List Segment} (queue : p.sq.queue = g :: more)
    (planned : p.fcu.planned = true) (inactive : p.sq.active = false)
    (runs : g.length ≠ 0 ∨ g.endCondition ≠ none) :
    p.activateHead = { p with sq.active := true, msh.progress := 0, fcu.armRefused := false }.markMotion := by
  have noMarker : ¬(g.length = 0 ∧ g.endCondition = none) := fun ⟨h, e⟩ => runs.elim (· h) (· e)
  unfold Part.activateHead
  rw [queue, List.length_cons, Part.activateFrom, queue]
  simp [planned, inactive, noMarker]

/-- The counts of an OK answer: the records in the queue and the places left (R72). -/
abbrev counts (n : Nat) : List Byte := [byte n, byte (32 - n)]

theorem placeChecked_eq {p : Part} (takes : p.fcu.takesAppend = true) (gs : List Segment) :
    p.placeChecked gs = (p.place gs).answer .ok (counts (p.place gs).sq.queue.length) :=
  if_pos takes

theorem placeChecked_idle {p : Part} (takes : p.fcu.takesAppend = true)
    (idle : p.fcu.planned = false ∨ p.sq.active = true) (gs : List Segment) :
    p.placeChecked gs = (enqueued gs p).answer .ok (counts (enqueued gs p).sq.queue.length) := by
  have placed : p.place gs = enqueued gs p := activateHead_idle (p := enqueued gs p) idle
  rw [placeChecked_eq takes, placed]

/-! ### The arrival of a PLAN_APPEND (R72, R73) -/

/-- The part in which a PLAN_APPEND, taken in the event of its arrival, meets its checks. -/
abbrev appendTaken (tag : Byte) (segments : List SegmentBody) (s : State) : Part :=
  s.part.requestTaken 3 tag (planAppendBody segments)

/-- The request meets the mode and the queue as they stood before its arrival. -/
theorem planAppend_taken {s : State} (ready : PortReady s) (tag : Byte) {segments : List SegmentBody}
    (few : segments.length ≤ 13) :
    (appendTaken tag segments s).takeFrame 3 (planAppendBody segments) =
      if s.part.fcu.takesAppend = false then (appendTaken tag segments s).answer .wrongMode []
      else if segments.length = 0 ∨ 4 < segments.length then (appendTaken tag segments s).answer .badValue [255]
      else if 32 - s.part.sq.queue.length < segments.length then
        (appendTaken tag segments s).answer .queueFull [byte (32 - s.part.sq.queue.length)]
      else (appendTaken tag segments s).appendOn (segments.map SegmentBody.record) (appendChecks 0 segments) := by
  obtain ⟨fcu, -, -, sq, -⟩ := Part.requestTaken_keeps 3 tag (planAppendBody segments) s.part ready.1
  have takes : (appendTaken tag segments s).fcu.takesAppend = s.part.fcu.takesAppend := by
    rw [appendTaken, fcu]
    rfl
  rw [takeFrame_planAppend few, takes, appendTaken, sq]

/-- A PLAN_APPEND that passes mode, count and room goes on with the checks of its segments. -/
theorem planAppend_admitted {s : State} (ready : PortReady s) (tag : Byte) {segments : List SegmentBody}
    (takes : s.part.fcu.takesAppend = true) (carried : 1 ≤ segments.length) (four : segments.length ≤ 4)
    (room : segments.length ≤ 32 - s.part.sq.queue.length) :
    (appendTaken tag segments s).takeFrame 3 (planAppendBody segments) =
      (appendTaken tag segments s).appendOn (segments.map SegmentBody.record) (appendChecks 0 segments) := by
  have taken := planAppend_taken ready tag (segments := segments) (by omega)
  rwa [if_neg (by simp [takes]), if_neg (by omega), if_neg (by omega)] at taken

/-- The first check that fails refuses the request (R72, R73). -/
theorem planAppend_refused (tag : Byte) (segments : List SegmentBody) (s : State) (ready : PortReady s)
    (few : segments.length ≤ 13) :
    (s.part.fcu.takesAppend = false →
      ∃ t, exec (.planAppend tag segments) s = .next t ∧
        OnlyAnswered s t 3 tag (planAppendBody segments) .wrongMode []) ∧
    (s.part.fcu.takesAppend = true → (segments.length = 0 ∨ 4 < segments.length) →
      ∃ t, exec (.planAppend tag segments) s = .next t ∧
        OnlyAnswered s t 3 tag (planAppendBody segments) .badValue [255]) ∧
    (s.part.fcu.takesAppend = true → 1 ≤ segments.length → segments.length ≤ 4 →
      32 - s.part.sq.queue.length < segments.length →
      ∃ t, exec (.planAppend tag segments) s = .next t ∧
        OnlyAnswered s t 3 tag (planAppendBody segments) .queueFull [byte (32 - s.part.sq.queue.length)]) ∧
    (s.part.fcu.takesAppend = true → 1 ≤ segments.length → segments.length ≤ 4 →
      segments.length ≤ 32 - s.part.sq.queue.length →
      ∀ position rest, appendChecks 0 segments = .fail position :: rest →
      ∃ t, exec (.planAppend tag segments) s = .next t ∧
        OnlyAnswered s t 3 tag (planAppendBody segments) .badValue [byte position]) := by
  have taken := planAppend_taken ready tag few
  refine ⟨fun mode => ?_, fun takes count => ?_, fun takes carried four full => ?_,
    fun takes carried four room => ?_⟩
  · exact State.request_only_answered _ _ _ _ _ s ready (taken.trans (if_pos mode))
  · refine State.request_only_answered _ _ _ _ _ s ready (taken.trans ?_)
    rw [if_neg (by simp [takes]), if_pos count]
  · refine State.request_only_answered _ _ _ _ _ s ready (taken.trans ?_)
    rw [if_neg (by simp [takes]), if_neg (by omega), if_pos full]
  · intro position rest checks
    have admitted := planAppend_admitted ready tag takes carried four room
    rw [checks] at admitted
    exact State.request_only_answered _ _ _ _ _ s ready admitted

/-- Without a read to make, and nothing to activate, the segments are placed as they arrive (R72, R74). -/
theorem planAppend_placed (tag : Byte) (segments : List SegmentBody) (s : State) (ready : PortReady s)
    (takes : s.part.fcu.takesAppend = true) (carried : 1 ≤ segments.length) (four : segments.length ≤ 4)
    (room : segments.length ≤ 32 - s.part.sq.queue.length) (checks : appendChecks 0 segments = [])
    (idle : s.part.fcu.planned = false ∨ s.part.sq.active = true) :
    ∃ t, exec (.planAppend tag segments) s = .next t ∧
      t.part.sq.queue = s.part.sq.queue ++ keyed s.part.serial (segments.map SegmentBody.record) ∧
      t.part.sq.active = s.part.sq.active ∧ t.part.sq.starvedArmed = true ∧
      Answered s t tag .ok
        [byte (s.part.sq.queue.length + segments.length),
         byte (32 - (s.part.sq.queue.length + segments.length))] ∧
      KeepRestarted s t ∧ StoreKept s t := by
  obtain ⟨fcu, -, -, sq, -, -, -, -, -, tst, -, serial, -⟩ :=
    Part.requestTaken_keeps 3 tag (planAppendBody segments) s.part ready.1
  have filled : segments.map SegmentBody.record ≠ [] := by
    intro empty
    simp [List.map_eq_nil_iff.mp empty] at carried
  have taken := planAppend_admitted ready tag takes carried four room
  rw [checks, Part.appendOn, placeChecked_idle (by rw [fcu]; exact takes) (by rw [fcu, sq]; exact idle),
    enqueued_length, sq, List.length_map] at taken
  have event := answered_undisturbed ready
    ((undisturbed_requestTaken 3 tag (planAppendBody segments) s.part).enqueued filled)
    (unrefused_requestTaken ready 3 tag (planAppendBody segments)) rfl rfl rfl taken
  refine ⟨_, rfl, ?_, ?_, ?_, Part.answered_frames 3 tag (planAppendBody segments) _ _ s _ ?_, ?_, rfl, ?_⟩
  all_goals simp only [KeepRestarted, State.event, event]
  · simp only [enqueued, sq, serial]
  · simp only [enqueued, sq]
  · rfl
  · exact fcu
  · exact tst

/-- A PLAN_APPEND that passes mode, count and room is placed, or goes on as an operation with its first read. -/
theorem planAppend_placed_or_read (tag : Byte) (segments : List SegmentBody) (s : State) (ready : PortReady s)
    (takes : s.part.fcu.takesAppend = true) (carried : 1 ≤ segments.length) (four : segments.length ≤ 4)
    (room : segments.length ≤ 32 - s.part.sq.queue.length) :
    (appendChecks 0 segments = [] → (s.part.fcu.planned = false ∨ s.part.sq.active = true) →
      ∃ t, exec (.planAppend tag segments) s = .next t ∧
        t.part.sq.queue = s.part.sq.queue ++ keyed s.part.serial (segments.map SegmentBody.record) ∧
        t.part.sq.active = s.part.sq.active ∧ t.part.sq.starvedArmed = true ∧
        Answered s t tag .ok
          [byte (s.part.sq.queue.length + segments.length),
           byte (32 - (s.part.sq.queue.length + segments.length))] ∧
        KeepRestarted s t ∧ StoreKept s t) ∧
    (∀ position k rest, appendChecks 0 segments = .loop position k :: rest →
      ∃ t, exec (.planAppend tag segments) s = .next t ∧
        InHand s t 3 tag (planAppendBody segments)
          (.append (segments.map SegmentBody.record) (.loop position k :: rest)) ∧
        AccessRequested t .planner (.entryRead .loopCode k) .plannerRead) ∧
    (∀ position z rest, appendChecks 0 segments = .zone position z :: rest →
      ∃ t, exec (.planAppend tag segments) s = .next t ∧
        InHand s t 3 tag (planAppendBody segments)
          (.append (segments.map SegmentBody.record) (.zone position z :: rest)) ∧
        AccessRequested t .planner (.entryRead .zone z) .plannerRead) := by
  have taken := planAppend_admitted ready tag takes carried four room
  refine ⟨planAppend_placed tag segments s ready takes carried four room, ?_, ?_⟩
  · intro position k rest checks
    rw [checks] at taken
    exact request_reads ready taken
  · intro position z rest checks
    rw [checks] at taken
    exact request_reads ready taken

/-! ### A completed entry read (R176, R180 to R184) -/

theorem judge_of_clean {w : StoredWord} (clean : w.syndrome = 0) : w.judge = .clean w.data := by
  simp [StoredWord.judge, clean]

/-- The words of a sound entry are read without an error. -/
theorem readWords_of_clean (m : StoreMode) (isProtected : Bool) (n : Nat) {words : List StoredWord}
    (clean : ∀ w ∈ words, w.syndrome = 0) :
    findingErrors (readWords m isProtected n words) = [] ∧
      findingData (readWords m isProtected n words) = some (words.map (·.data)) := by
  induction words generalizing n with
  | nil => exact ⟨rfl, rfl⟩
  | cons w ws ih =>
    have first : readWord m isProtected n w = ⟨none, some w.data⟩ := by
      simp [readWord, judge_of_clean (clean w List.mem_cons_self)]
    obtain ⟨errors, data⟩ := ih (n + 1) fun v hv => clean v (List.mem_cons_of_mem w hv)
    rw [readWords, first]
    exact ⟨errors, by simp [findingData, data]⟩

/-- An uncorrectable word gives an uncorrectable error, and the entry no data. -/
theorem readWords_of_uncorrectable (m : StoreMode) (isProtected : Bool) (n : Nat) {words : List StoredWord}
    (broken : ∃ w ∈ words, w.judge = .uncorrectable) :
    (findingErrors (readWords m isProtected n words)).any (·.uncorrectable) = true ∧
      findingData (readWords m isProtected n words) = none := by
  induction words generalizing n with
  | nil => simp at broken
  | cons w ws ih =>
    obtain ⟨v, hv, judged⟩ := broken
    rcases List.mem_cons.mp hv with rfl | behind
    · simp [readWords, readWord, judged, findingErrors, findingData]
    · obtain ⟨errors, data⟩ := ih (n + 1) ⟨v, behind, judged⟩
      have found : ∃ e ∈ findingErrors (readWords m isProtected (n + 1) ws), e.uncorrectable = true := by
        simpa using errors
      obtain ⟨e, he, uncorrectable⟩ := found
      refine ⟨List.any_eq_true.mpr ⟨e, ?_, uncorrectable⟩, ?_⟩
      · obtain ⟨x, hx, ex⟩ := List.mem_filterMap.mp he
        exact List.mem_filterMap.mpr ⟨x, List.mem_cons_of_mem _ hx, ex⟩
      · simp only [readWords, findingData, data]
        split <;> simp_all

/-- A granted read, not withdrawn. -/
abbrev readAccess (owner : Owner) (tab : Table) (i : Nat) (reader : Reader) : Access :=
  ⟨⟨owner, .entryRead tab i, reader⟩, .normal, false⟩

theorem exec_entryReadDone {s : State} {owner : Owner} {tab : Table} {i : Nat} {reader : Reader}
    (granted : ReadGranted s owner tab i reader) :
    exec .entryReadDone s =
      .next (s.event (Part.completeRead (readAccess owner tab i reader) tab i (s.mem.readEntry tab i))) := by
  obtain ⟨current, inside⟩ := granted
  change execEntryReadDone s = _
  simp [execEntryReadDone, current, inside]

section
variable (owner : Owner) (tab : Table) (i : Nat) (reader : Reader)

/-- A poisoned entry is returned as unusable (R183). -/
theorem completeRead_poisoned {p : Part} (poisoned : p.tst.poisoned.get tab i = true) (words : List StoredWord) :
    p.completeRead (readAccess owner tab i reader) tab i words = p.freeStore.deliver owner none := by
  simp [Part.completeRead, poisoned]

/-- A sound entry is returned with its fields, and costs nothing. -/
theorem completeRead_clean {p : Part} (poisoned : p.tst.poisoned.get tab i = false) {words : List StoredWord}
    (clean : ∀ w ∈ words, w.syndrome = 0) :
    p.completeRead (readAccess owner tab i reader) tab i words =
      p.freeStore.deliver owner (some (entryFields tab (words.map (·.data)))) := by
  obtain ⟨errors, data⟩ := readWords_of_clean .normal tab.isProtected (wordNumber tab i 0) clean
  simp [Part.completeRead, poisoned, errors, data, Part.checkEntry, Part.fillCapture, Part.logErrors,
    Part.readConsequence]

/-- An uncorrectable entry is logged, has its consequence by region, and is returned as unusable (R183, R184). -/
theorem completeRead_uncorrectable {p : Part} (poisoned : p.tst.poisoned.get tab i = false)
    {words : List StoredWord} (broken : ∃ w ∈ words, w.judge = .uncorrectable) :
    ∃ errors, p.completeRead (readAccess owner tab i reader) tab i words =
      (let logged := p.freeStore.logErrors reader errors
       if tab.isProtected then logged.tableFault
       else logged.poison tab i reader (owner == .zoneEval)).deliver owner none := by
  obtain ⟨errors, data⟩ := readWords_of_uncorrectable .normal tab.isProtected (wordNumber tab i 0) broken
  refine ⟨findingErrors (readWords .normal tab.isProtected (wordNumber tab i 0) words), ?_⟩
  simp [Part.completeRead, poisoned, errors, data, Part.checkEntry, Part.fillCapture, Part.readConsequence]

end

/-! ### A check read of a PLAN_APPEND completes (R73) -/

/-- A check of a PLAN_APPEND in hand has its read granted, with no other request of the port waiting. -/
structure CheckRead (s : State) (segments : List Segment) (check : AppendCheck) (rest : List AppendCheck)
    (tab : Table) (i position : Nat) (f : RxFrame) : Prop where
  granted : ReadGranted s .planner tab i .plannerRead
  op : s.part.plp.op = some (.append segments (check :: rest))
  inHand : s.part.plp.inHand = some f
  alone : ∀ q ∈ s.part.tst.waiting, q.owner ≠ .planner
  served : NoneWaits s.part
  names : check = .loop position i ∧ tab = .loopCode ∨ check = .zone position i ∧ tab = .zone

/-- The part as the completed read finds it: the store is free. -/
abbrev storeFreed (s : State) : Part := s.part.begin.freeStore

theorem undisturbed_storeFreed (s : State) : Undisturbed (storeFreed s) :=
  ⟨rfl, rfl, rfl, rfl, rfl, rfl, rfl, ⟨rfl, .inl rfl⟩⟩

/-- The entry is as its check wants it: valid and own for a loop, valid for a zone (R73). -/
def EntryPasses (s : State) (tab : Table) (i : Nat) : Prop :=
  (tab = .loopCode → (loopEntryOf (storedFields s .loopCode i)).valid = true ∧
      (loopEntryOf (storedFields s .loopCode i)).role ≠ .foreign) ∧
    (tab = .zone → (zoneEntryOf (storedFields s .zone i)).valid = true)

section
variable {s : State} {segments : List Segment} {check : AppendCheck} {rest : List AppendCheck} {tab : Table}
  {i position : Nat} {f : RxFrame}

theorem CheckRead.unrefused (reads : CheckRead s segments check rest tab i position f) : Unrefused (storeFreed s) :=
  unrefused_of_no_planner reads.alone

/-- An entry that can be used decides its check. -/
theorem CheckRead.appendRead_some (reads : CheckRead s segments check rest tab i position f) (p : Part) :
    (EntryPasses s tab i →
      p.appendRead segments (check :: rest) (some (storedFields s tab i)) = p.appendOn segments rest) ∧
    (¬ EntryPasses s tab i →
      p.appendRead segments (check :: rest) (some (storedFields s tab i)) = p.answer .badValue [byte position]) := by
  rcases reads.names with ⟨rfl, rfl⟩ | ⟨rfl, rfl⟩
  · have own : (loopEntryOf (storedFields s .loopCode i)).own = true ↔ EntryPasses s .loopCode i := by
      simp [LoopEntry.own, EntryPasses]
    exact ⟨fun h => if_pos (own.mpr h), fun h => if_neg fun o => h (own.mp o)⟩
  · have usable : zoneUsable (some (storedFields s .zone i)) = true ↔ EntryPasses s .zone i := by
      simp [zoneUsable, EntryPasses]
    exact ⟨fun h => if_pos (usable.mpr h), fun h => if_neg fun o => h (usable.mp o)⟩

/-- An entry that cannot be used fails its check. -/
theorem CheckRead.appendRead_none (reads : CheckRead s segments check rest tab i position f) (p : Part) :
    p.appendRead segments (check :: rest) none = p.answer .badValue [byte position] := by
  rcases reads.names with ⟨rfl, -⟩ | ⟨rfl, -⟩ <;> rfl

/-- The result of the read goes to the check, in any part that has kept the port's buffer and operation. -/
theorem CheckRead.deliver (reads : CheckRead s segments check rest tab i position f) (result : Option (List Int))
    {p : Part} (rx : p.plp.rx = s.part.plp.rx) (op : p.plp.op = s.part.plp.op) :
    p.deliver .planner result = p.appendRead segments (check :: rest) result := by
  have inHand : p.plp.inHand = some f := by
    unfold Plp.inHand
    rw [rx]
    exact reads.inHand
  change p.plannerResult result = _
  unfold Part.plannerResult
  rw [inHand, op, reads.op]

/-- The effect of the completed read: `ReadEffect s tab i r` says that it makes r of the part. -/
def ReadEffect (s : State) (tab : Table) (i : Nat) (r : Part) : Prop :=
  s.part.begin.completeRead (readAccess .planner tab i .plannerRead) tab i (s.mem.readEntry tab i) = r

/-- The event of the completed read, where no frame waits behind its effect. -/
theorem CheckRead.next (reads : CheckRead s segments check rest tab i position f) {r : Part}
    (effect : ReadEffect s tab i r) (served : NoneWaits r) :
    exec .entryReadDone s = .next { s with part := closed r } := by
  have event := runEvent_eq_closed
    (effect := Part.completeRead (readAccess .planner tab i .plannerRead) tab i (s.mem.readEntry tab i))
    (p := s.part) (by rw [show _ = r from effect]; exact served)
  rw [exec_entryReadDone reads.granted, State.event, event, show _ = r from effect]

/-- A check that passes goes on with those that are left. -/
theorem CheckRead.passes (reads : CheckRead s segments check rest tab i position f) (sound : Sound s tab i)
    (pass : EntryPasses s tab i) :
    ReadEffect s tab i ((storeFreed s).appendOn segments rest) := by
  obtain ⟨poisoned, clean⟩ := sound
  rw [ReadEffect, completeRead_clean (p := s.part.begin) _ _ _ _ poisoned clean,
    reads.deliver _ (p := storeFreed s) rfl rfl]
  exact (reads.appendRead_some _).1 pass

/-- A check fails on a poisoned entry, and on an entry that is not as the check wants it. -/
theorem CheckRead.fails (reads : CheckRead s segments check rest tab i position f)
    (fail : s.part.tst.poisoned.get tab i = true ∨
      Sound s tab i ∧ ¬ EntryPasses s tab i) :
    ReadEffect s tab i ((storeFreed s).answer .badValue [byte position]) := by
  rcases fail with poisoned | ⟨⟨poisoned, clean⟩, wrong⟩
  · rw [ReadEffect, completeRead_poisoned (p := s.part.begin) _ _ _ _ poisoned,
      reads.deliver _ (p := storeFreed s) rfl rfl, reads.appendRead_none]
  · rw [ReadEffect, completeRead_clean (p := s.part.begin) _ _ _ _ poisoned clean,
      reads.deliver _ (p := storeFreed s) rfl rfl]
    exact (reads.appendRead_some _).2 wrong

/-- A check read leaves the blocks behind the port and the store as they are. -/
def BlocksStand (s t : State) : Prop :=
  t.part.fcu = s.part.fcu ∧ t.part.sq = s.part.sq ∧ t.part.rtu = s.part.rtu ∧ t.part.hre = s.part.hre ∧
    t.part.msh = s.part.msh ∧ t.part.ltr = s.part.ltr ∧ t.part.dbm = s.part.dbm ∧ t.mem = s.mem ∧
    t.pending = s.pending

/-- The check read ends in an answer, with nothing left to be done of what it has changed. -/
theorem CheckRead.answers (reads : CheckRead s segments check rest tab i position f) {q : Part} (u : Undisturbed q)
    (unrefused : Unrefused q) (plp : q.plp = s.part.plp) {code : AnswerCode} {data : List Byte}
    (effect : ReadEffect s tab i (q.answer code data)) :
    ∃ t, exec .entryReadDone s = .next t ∧ BlocksStand { s with part := q } t ∧
      TxFrame.answer f.tag code data ∈ t.part.plp.tx ∧ t.part.plp.op = none := by
  have inHand : q.plp.inHand = some f := plp ▸ reads.inHand
  have served : NoneWaits q := reads.served.of_same (congrArg Plp.rx plp)
  have closes := (u.answer code data).closed_eq (unrefused.answer code data)
  refine ⟨_, reads.next effect (served.answer code data), ?_, mem_closed_tx (answer_sent inHand code data), ?_⟩
  · simp only [BlocksStand]
    rw [closes, answer_inHand inHand]
    exact ⟨rfl, rfl, rfl, rfl, rfl, rfl, rfl, trivial, trivial⟩
  · rw [closes]
    exact answer_op inHand code data

/-- A request that the check read answers without a further effect. -/
theorem CheckRead.answered (reads : CheckRead s segments check rest tab i position f) {code : AnswerCode}
    {data : List Byte} (effect : ReadEffect s tab i ((storeFreed s).answer code data)) :
    ∃ t, exec .entryReadDone s = .next t ∧ BlocksStand s t ∧ TxFrame.answer f.tag code data ∈ t.part.plp.tx ∧
      t.part.plp.op = none :=
  reads.answers (undisturbed_storeFreed s) reads.unrefused rfl effect

/-- A check that passes asks for the read of the next one (log 41). -/
theorem CheckRead.asks (reads : CheckRead s segments check rest tab i position f) {tab' : Table} {i' : Nat}
    (effect : ReadEffect s tab i
      ((storeFreed s).plannerRead (.append segments rest) tab' i' .plannerRead)) :
    ∃ t, exec .entryReadDone s = .next t ∧ BlocksStand s t ∧ t.part.plp.inHand = some f ∧
      t.part.plp.op = some (.append segments rest) ∧
      AccessRequested t .planner (.entryRead tab' i') .plannerRead := by
  have u := (undisturbed_storeFreed s).plannerRead (.append segments rest) tab' i' .plannerRead
  have unrefused := reads.unrefused.plannerRead (.append segments rest) tab' i' .plannerRead
  have asked := u.asked unrefused (asked_plannerRead ..)
  refine ⟨_, reads.next effect reads.served, ?_, ?_, ?_, (accessRequested_iff ..).mpr asked⟩
  · simp only [u.closed_eq unrefused, BlocksStand]
    exact ⟨rfl, rfl, rfl, rfl, rfl, rfl, rfl, trivial, trivial⟩
  · rw [u.closed_eq unrefused]
    exact reads.inHand
  · rw [u.closed_eq unrefused]
    rfl

/-- The segments stand behind the queue and the request is answered OK with the counts (R72, R74). -/
def Placed (s : State) (segments : List Segment) (f : RxFrame) (t : State) : Prop :=
  let queue := s.part.sq.queue ++ keyed s.part.serial segments
  exec .entryReadDone s = .next t ∧ t.part.sq.queue = queue ∧
    t.part.sq.starvedArmed = true ∧
    t.part.sq.refillArmed = (s.part.sq.refillArmed || decide (s.part.sq.refillMark < queue.length)) ∧
    TxFrame.answer f.tag .ok [byte queue.length, byte (32 - queue.length)] ∈ t.part.plp.tx ∧
    t.part.plp.op = none ∧ t.part.fcu.mode = s.part.fcu.mode ∧ t.mem = s.mem ∧ t.pending = s.pending

/-- Without a head to activate, the segments are placed and nothing else happens. -/
theorem CheckRead.placed_idle (reads : CheckRead s segments check rest tab i position f) (filled : segments ≠ [])
    (effect : ReadEffect s tab i ((storeFreed s).placeChecked segments))
    (takes : s.part.fcu.takesAppend = true) (idle : s.part.fcu.planned = false ∨ s.part.sq.active = true) :
    ∃ t, Placed s segments f t ∧ t.part.sq.active = s.part.sq.active := by
  rw [placeChecked_idle (p := storeFreed s) takes idle] at effect
  obtain ⟨t, next, ⟨fcu, sq, -, -, -, -, -, mem, pending⟩, sent, op⟩ :=
    reads.answers ((undisturbed_storeFreed s).enqueued filled) reads.unrefused rfl effect
  refine ⟨t, ⟨next, ?_, ?_, ?_, sent, op, congrArg Fcu.mode fcu, mem, pending⟩, ?_⟩
  · exact congrArg Sq.queue sq
  · exact congrArg Sq.starvedArmed sq
  · exact congrArg Sq.refillArmed sq
  · rw [sq]
    rfl

/-! ### An event that leaves modes and segments to the cause (R147, R163) -/

/-- The deferral test has not fallen, or no response is pending; the Return Unit begins nothing, and neither a period
nor a walk begins. -/
structure Still (p : Part) : Prop where
  deferral : (p.agenda.held = true → p.deferralTest = true) ∨ p.hre.pending = none
  returning : p.agenda.returning = false
  period : p.agenda.period = false
  walk : p.agenda.walk = false

theorem Still.answer {p : Part} (still : Still p) (code : AnswerCode) (data : List Byte) :
    Still (p.answer code data) where
  deferral := by simpa [Part.deferralTest] using still.deferral
  returning := by simp [still.returning]
  period := by simp [still.period]
  walk := by simp [still.walk]

/-- The deferral test changes nothing where it has not fallen, or no response is pending (R147). -/
theorem deferralPass_idle {p : Part} (h : (p.agenda.held = true → p.deferralTest = true) ∨ p.hre.pending = none) :
    p.deferralPass = p := by
  unfold Part.deferralPass
  rcases h with holds | empty
  · cases hh : p.agenda.held with
    | false => rfl
    | true => simp [holds hh]
  · split
    · unfold Part.deferralLifted
      split
      next pending => simp [empty] at pending
      next => rfl
    · rfl

theorem Still.motion {p : Part} (still : Still p) : p.settleMotion = p := by
  have lifted : p.passIf p.agenda.deferral Part.deferralPass = p := by
    cases p.agenda.deferral with
    | false => rfl
    | true => exact deferralPass_idle still.deferral
  unfold Part.settleMotion
  simp only [lifted, still.returning, Part.passIf_false]

/-- What the end of such an event leaves as its cause has made it. -/
theorem Still.closed_keeps {p : Part} (still : Still p) :
    (closed p).fcu.mode = p.fcu.mode ∧ (closed p).fcu.resume = p.fcu.resume ∧
    (closed p).fcu.stopCause = p.fcu.stopCause ∧ (closed p).hre = p.hre ∧ (closed p).rtu = p.rtu ∧
    (closed p).scr = p.scr ∧ (closed p).ltr = p.ltr ∧ (closed p).sin = p.sin ∧
    (closed p).sq.queue = p.sq.queue ∧ (closed p).msh.progress = p.msh.progress ∧
    (closed p).tst.poisoned = p.tst.poisoned := by
  have settled := settle_of_still still.motion still.period still.walk
  unfold closed
  cases h : p.agenda.store <;> simp [settled, h]

theorem Still.closed_tst {p : Part} (still : Still p) (store : p.agenda.store = false) : (closed p).tst = p.tst := by
  simp [closed, settle_of_still still.motion still.period still.walk, store]

theorem Still.closed_sq {p : Part} (still : Still p) (stands : QueueStands p) : (closed p).sq = p.sq := by
  have settled : p.settle.sq = p.sq ∧ QueueStands p.settle := by
    rw [settle_of_still still.motion still.period still.walk]
    cases p.agenda.store with
    | false => exact ⟨rfl, stands.of_same rfl rfl rfl⟩
    | true => exact ⟨by simp, stands.of_same (by simp) (by simp) (by simp)⟩
  obtain ⟨same, stands⟩ := settled
  have concluded := stands.conclude_sq.trans same
  simpa [closed] using concluded

/-- The arbiter takes up no operation of the port. -/
theorem grantStoreFrom_op {p : Part} (op : p.plp.op = none) (n : Nat) : (p.grantStoreFrom n).plp.op = none := by
  induction n generalizing p with
  | zero => exact op
  | succ n ih =>
    have answered : ∀ q : Part, q.plp.op = none → (q.answer .wrongMode []).plp.op = none := by
      intro q hq
      unfold Part.answer
      split
      · rfl
      · exact hq
    unfold Part.grantStoreFrom
    split
    · split
      · exact ih (answered _ op)
      · split
        · exact ih (p := p.removeRequest _) op
        · exact op
    · exact op

/-- With no operation in hand behind an effect, none is in hand behind its event. -/
theorem closed_op {p : Part} (op : p.plp.op = none) : (closed p).plp.op = none := by
  have pass : ∀ (mark : Bool) (f : Part → Part) (q : Part), q.plp.op = none → (f q).plp.op = none →
      (q.passIf mark f).plp.op = none := by
    intro mark f q hq hf
    cases mark with
    | false => exact hq
    | true => exact hf
  have moved : p.settleMotion.plp.op = none := by simp [op]
  have period := pass p.settleMotion.agenda.period Part.beginComputation _ moved (by simp [op])
  have walk := pass (p.settleMotion.passIf p.settleMotion.agenda.period Part.beginComputation).agenda.walk
    Part.beginWalk _ period (by simpa using period)
  have settled : p.settle.plp.op = none := pass _ Part.grantStore _ walk (grantStoreFrom_op walk _)
  simpa [closed] using settled

/-- The check read ends in an answer, with what it has changed left to stand. -/
theorem CheckRead.ends (reads : CheckRead s segments check rest tab i position f) {q : Part} (still : Still q)
    (rx : q.plp.rx = s.part.plp.rx) {code : AnswerCode} {data : List Byte}
    (effect : ReadEffect s tab i (q.answer code data)) :
    ∃ t, exec .entryReadDone s = .next t ∧ t.mem = s.mem ∧ t.pending = s.pending ∧
      TxFrame.answer f.tag code data ∈ t.part.plp.tx ∧ t.part.plp.op = none ∧ t.part.fcu.mode = q.fcu.mode ∧
      t.part.msh.progress = q.msh.progress ∧ t.part.tst.poisoned = q.tst.poisoned ∧
      (QueueStands q → t.part.sq = q.sq) := by
  have inHand : q.plp.inHand = some f := by
    unfold Plp.inHand
    rw [rx]
    exact reads.inHand
  have served : NoneWaits q := reads.served.of_same rx
  obtain ⟨mode, -, -, -, -, -, -, -, -, progress, poisoned⟩ := (still.answer code data).closed_keeps
  refine ⟨_, reads.next effect (served.answer code data), rfl, rfl, mem_closed_tx (answer_sent inHand code data),
    closed_op (answer_op inHand code data), mode.trans (by simp), progress.trans (by simp), poisoned.trans (by simp),
    fun stands => ?_⟩
  have answered : QueueStands (q.answer code data) := stands.of_same (by simp) (by simp) (by simp)
  exact ((still.answer code data).closed_sq answered).trans (by simp)

/-! ### A placement that activates its head (R76) -/

/-- With planned motion allowed and no segment active, the deferral test is that of the final approach. -/
theorem deferralTest_without_segment {p : Part} (planned : p.fcu.planned = true) (inactive : p.sq.active = false) :
    p.deferralTest = p.rtu.finalApproach := by
  have away : p.fcu.homing = false := by
    unfold Fcu.planned at planned
    unfold Fcu.homing
    cases mode : p.fcu.mode <;> simp_all
  simp [Part.deferralTest, Sq.activeSegment, inactive, away]

/-- The segments behind an empty queue, their first one active. -/
def started (gs : List Segment) (p : Part) : Part :=
  { enqueued gs p with sq.active := true, msh.progress := 0, fcu.armRefused := false }.markMotion

theorem place_started {p : Part} {g : Segment} {more : List Segment} (planned : p.fcu.planned = true)
    (inactive : p.sq.active = false) (empty : p.sq.queue = []) (runs : g.length ≠ 0 ∨ g.endCondition ≠ none) :
    p.place (g :: more) = started (g :: more) p := by
  have queue : (enqueued (g :: more) p).sq.queue = { g with key := p.serial } :: keyed (p.serial + 1) more := by
    simp [enqueued, empty, keyed]
  exact activateHead_of_head queue planned inactive runs

/-- A head that is no marker becomes active behind an empty queue in RUN (R74, R76). -/
theorem CheckRead.placed_started (reads : CheckRead s segments check rest tab i position f)
    (effect : ReadEffect s tab i ((storeFreed s).placeChecked segments)) (takes : s.part.fcu.takesAppend = true)
    {g : Segment} {more : List Segment} (planned : s.part.fcu.planned = true) (inactive : s.part.sq.active = false)
    (empty : s.part.sq.queue = []) (carried : segments = g :: more) (runs : g.length ≠ 0 ∨ g.endCondition ≠ none) :
    ∃ t, Placed s segments f t ∧ t.part.sq.active = true ∧ t.part.msh.progress = 0 := by
  have filled : segments ≠ [] := by simp [carried]
  have placed : (storeFreed s).place segments = started segments (storeFreed s) := by
    rw [carried]
    exact place_started (p := storeFreed s) planned inactive empty runs
  rw [placeChecked_eq (p := storeFreed s) takes, placed] at effect
  have still : Still (started segments (storeFreed s)) := by
    refine ⟨.inl fun held => ?_, rfl, rfl, rfl⟩
    have final : s.part.rtu.finalApproach = true :=
      (deferralTest_without_segment planned inactive).symm.trans held
    have same : (started segments (storeFreed s)).rtu.finalApproach = true := final
    simp [Part.deferralTest, same]
  have stands : QueueStands (started segments (storeFreed s)) :=
    ⟨rfl, .inr (enqueued_queue_ne filled (storeFreed s))⟩
  obtain ⟨t, next, mem, pending, sent, op, mode, progress, -, queue⟩ := reads.ends still rfl effect
  have sq := queue stands
  exact ⟨t, ⟨next, congrArg Sq.queue sq, congrArg Sq.starvedArmed sq, congrArg Sq.refillArmed sq, sent, op, mode,
    mem, pending⟩, congrArg Sq.active sq, progress⟩

/-! ### A check read that finds an entry uncorrectable (R14, R183, R184) -/

theorem poison_poisons {p : Part} {i : Nat} (inside : i < 24) (reader : Reader) (own : Bool) :
    (p.poison .zone i reader own).tst.poisoned.get .zone i = true := by
  unfold Part.poison
  split
  next poisoned => exact poisoned
  next =>
    dsimp only
    split <;> simp [Poisoned.put, Poisoned.get, inside]

/-- The uncorrectable entry has its consequence by region, and the check fails. -/
theorem CheckRead.uncorrectable (reads : CheckRead s segments check rest tab i position f)
    (unpoisoned : s.part.tst.poisoned.get tab i = false)
    (broken : ∃ w ∈ s.mem.readEntry tab i, w.judge = .uncorrectable) :
    ∃ errors,
      (tab = .loopCode → ReadEffect s tab i
        (((storeFreed s).logErrors .plannerRead errors).tableFault.answer .badValue [byte position])) ∧
      (tab = .zone → ReadEffect s tab i
        ((((storeFreed s).logErrors .plannerRead errors).poison .zone i .plannerRead false).answer .badValue
          [byte position])) := by
  obtain ⟨errors, completes⟩ :=
    completeRead_uncorrectable (p := s.part.begin) .planner tab i .plannerRead unpoisoned broken
  refine ⟨errors, ?_, ?_⟩
  · rintro rfl
    rw [ReadEffect, completes]
    exact (reads.deliver none (p := ((storeFreed s).logErrors .plannerRead errors).tableFault) (by simp [Part.begin])
      (by simp [Part.begin])).trans (reads.appendRead_none _)
  · rintro rfl
    rw [ReadEffect, completes]
    exact (reads.deliver none (p := ((storeFreed s).logErrors .plannerRead errors).poison .zone i .plannerRead false)
      (by simp [Part.begin]) (by simp [Part.begin])).trans (reads.appendRead_none _)

/-- Logging errors leaves the event as still as it was. -/
theorem still_logErrors (s : State) (reader : Reader) (errors : List FoundError) :
    Still ((storeFreed s).logErrors reader errors) where
  deferral := .inl fun held => by simpa [Part.deferralTest, Part.begin, Part.freeStore] using held
  returning := by simp [Part.begin]
  period := by simp [Part.begin]
  walk := by simp [Part.begin]

/-- A zone entry found uncorrectable is poisoned, and the request refused (R73, R183). -/
theorem CheckRead.uncorrectable_zone (reads : CheckRead s segments check rest tab i position f)
    {errors : List FoundError} (zone : tab = .zone)
    (effect : ReadEffect s tab i
      ((((storeFreed s).logErrors .plannerRead errors).poison .zone i .plannerRead false).answer .badValue
        [byte position])) :
    ∃ t, exec .entryReadDone s = .next t ∧ TxFrame.answer f.tag .badValue [byte position] ∈ t.part.plp.tx ∧
      t.part.plp.op = none ∧ t.part.tst.poisoned.get .zone i = true ∧ t.part.fcu.mode = s.part.fcu.mode ∧
      t.part.sq = s.part.sq := by
  have inside : i < 24 := by simpa [zone, Table.entries] using reads.granted.2
  have still : Still (((storeFreed s).logErrors .plannerRead errors).poison .zone i .plannerRead false) :=
    ⟨.inl fun held => by simpa [Part.deferralTest, Part.begin, Part.freeStore] using held, by simp [Part.begin],
      by simp [Part.begin], by simp [Part.begin]⟩
  have stands : QueueStands (((storeFreed s).logErrors .plannerRead errors).poison .zone i .plannerRead false) :=
    (undisturbed_storeFreed s).stands.of_same (by simp) (by simp) (by simp)
  obtain ⟨t, next, -, -, sent, op, mode, -, poisoned, queue⟩ := reads.ends still (by simp [Part.begin]) effect
  refine ⟨t, next, sent, op, ?_, mode.trans (by simp [Part.begin]), (queue stands).trans (by simp [Part.begin])⟩
  rw [poisoned]
  exact poison_poisons inside ..

/-- The end of an event in which the part has stopped takes nothing of the stop back (R13). -/
theorem closed_at_rest {p : Part} (active : p.hre.active = none) (planDue : p.rtu.planDue = false)
    (rests : p.fcu.mode.moving = false) (permission : p.fcu.permission = false) :
    (closed p).fcu.mode = p.fcu.mode ∧ (closed p).fcu.stopCause = p.fcu.stopCause ∧
    (closed p).fcu.permission = false ∧ (closed p).msh.previousLeft = p.msh.previousLeft ∧
    (closed p).msh.previousRight = p.msh.previousRight ∧
    ∀ n, (p.node n).stopping → ((closed p).node n).stopping := by
  obtain ⟨fcu, dbm, -, -, -, -, -, -, -, -, -, -, -, -, left, right⟩ := Part.settle_at_rest p active planDue
  have stops : p.KeepsStops (closed p) :=
    ((Part.conclude_stops p.settle).behind p (congrArg Dbm.nodes dbm)).trans _ _ _ (.of_nodes _ _ rfl)
  have refused := Part.conclude_at_rest p.settle (by rw [fcu]; exact rests) (by rw [fcu]; exact permission)
  refine ⟨?_, ?_, ?_, ?_, ?_, stops.stopping⟩
  · simp [closed, fcu]
  · simp [closed, fcu]
  · simpa [closed] using refused
  · simp [closed, left]
  · simp [closed, right]

/-- A loop code entry found uncorrectable takes the part to SAFE, and the request is refused (R14, R73, R184). -/
theorem CheckRead.uncorrectable_loop (reads : CheckRead s segments check rest tab i position f)
    {errors : List FoundError}
    (effect : ReadEffect s tab i
      (((storeFreed s).logErrors .plannerRead errors).tableFault.answer .badValue [byte position])) :
    ∃ t, exec .entryReadDone s = .next t ∧ TxFrame.answer f.tag .badValue [byte position] ∈ t.part.plp.tx ∧
      t.part.plp.op = none ∧ t.part.fcu.mode = .safe ∧
      (s.part.fcu.mode ≠ .safe → t.part.fcu.stopCause = .tableFault ∧ Stopped s t) := by
  by_cases safe : s.part.fcu.mode = .safe
  · have unmoved : ((storeFreed s).logErrors .plannerRead errors).tableFault =
        (storeFreed s).logErrors .plannerRead errors := if_pos (by simpa [Part.begin] using safe)
    rw [unmoved] at effect
    obtain ⟨t, next, -, -, sent, op, mode, -⟩ :=
      reads.ends (still_logErrors s .plannerRead errors) (by simp [Part.begin]) effect
    exact ⟨t, next, sent, op, mode.trans (by simpa [Part.begin] using safe), fun h => absurd safe h⟩
  · have stop : ((storeFreed s).logErrors .plannerRead errors).tableFault =
        ((storeFreed s).logErrors .plannerRead errors).enterStop .safe (some .tableFault) true :=
      if_neg (by simpa [Part.begin] using safe)
    rw [stop] at effect
    obtain ⟨mode, -, cause, permission, active, -, -, -, planDue, -, -, left, right, -, -, -, -, stopping⟩ :=
      Part.enterStop_sets .safe (some .tableFault) true ((storeFreed s).logErrors .plannerRead errors)
    generalize hq : ((storeFreed s).logErrors .plannerRead errors).enterStop .safe (some .tableFault) true = q at *
    have rx : q.plp.rx = s.part.plp.rx := by simp [← hq, Part.begin]
    have inHand : q.plp.inHand = some f := by
      unfold Plp.inHand
      rw [rx]
      exact reads.inHand
    have served : NoneWaits q := reads.served.of_same rx
    have nodes : ∀ n, (s.part.node n).standing ≠ .lost →
        ((q.answer .badValue [byte position]).node n).stopping := by
      intro n online
      rw [Part.node_of_nodes _ q (by simp)]
      apply stopping
      rwa [Part.node_of_nodes _ s.part (by simp [Part.begin])]
    obtain ⟨mode', cause', permission', left', right', stops⟩ :=
      closed_at_rest (p := q.answer .badValue [byte position]) (by simp [active]) (by simp [planDue])
        (by simp [mode, Mode.moving]) (by simp [permission])
    refine ⟨_, reads.next effect (served.answer _ _), mem_closed_tx (answer_sent inHand _ _),
      closed_op (answer_op inHand _ _), mode'.trans (by simp [mode]),
      fun _ => ⟨cause'.trans (by simp [cause]), ?_⟩⟩
    exact ⟨fun n online => (stopAsked_iff _ n).mpr (stops n (nodes n online)), left'.trans (by simp [left]),
      right'.trans (by simp [right]), permission'⟩

end

/-- Settles O19: the arrival by its checks in order, and the completed check read by what it finds. -/
theorem planAppendPlacesOrRefuses : Obligations.PlanAppendPlacesOrRefuses := by
  refine ⟨planAppend_refused, planAppend_placed_or_read, ?_⟩
  intro s segments check rest tab i position f granted op inHand alone served names filled _ kept refused asks loop
    zone passes fails bad queue placed
  have reads : CheckRead s segments check rest tab i position f :=
    ⟨granted, op, inHand, alone, (noFrameWaits_iff s).mp served, names⟩
  refine ⟨?_, ?_, ?_⟩
  · rintro (poisoned | ⟨sound, wrongLoop, wrongZone⟩)
    · exact reads.answered (reads.fails (.inl poisoned))
    · refine reads.answered (reads.fails (.inr ⟨sound, fun ⟨ownLoop, validZone⟩ => ?_⟩))
      rcases names with ⟨-, rfl⟩ | ⟨-, rfl⟩
      · obtain ⟨valid, own⟩ := ownLoop rfl
        rcases wrongLoop rfl with invalid | foreign
        · exact absurd valid (by rw [invalid]; decide)
        · exact own foreign
      · exact absurd (validZone rfl) (by rw [wrongZone rfl]; decide)
  · rintro ⟨unpoisoned, broken⟩
    obtain ⟨errors, loopEffect, zoneEffect⟩ := reads.uncorrectable unpoisoned broken
    rcases names with ⟨-, rfl⟩ | ⟨-, rfl⟩
    · obtain ⟨t, next, sent, op, mode, stops⟩ := reads.uncorrectable_loop (loopEffect rfl)
      exact ⟨t, next, sent, op, fun _ => ⟨mode, stops⟩, nofun⟩
    · obtain ⟨t, next, sent, op, stands⟩ := reads.uncorrectable_zone rfl (zoneEffect rfl)
      exact ⟨t, next, sent, op, nofun, fun _ => stands⟩
  · rintro ⟨sound, pass⟩
    have effect := reads.passes sound pass
    refine ⟨?_, ?_, ?_, ?_, ?_, ?_⟩
    · rintro p more rfl
      exact reads.answered effect
    · rintro p k more rfl
      exact reads.asks effect
    · rintro p z more rfl
      exact reads.asks effect
    · rintro rfl away
      have refuses : (storeFreed s).appendOn segments [] = (storeFreed s).answer .wrongMode [] :=
        if_neg (ne_true_of_eq_false away)
      rw [refuses] at effect
      exact reads.answered effect
    · rintro rfl takes idle
      exact reads.placed_idle filled effect takes idle
    · rintro g more rfl planned inactive empty carried runs
      have takes : s.part.fcu.takesAppend = true := by simp [Fcu.takesAppend, planned]
      exact reads.placed_started effect takes planned inactive empty carried runs

/-! ### PLAN_FLUSH (R82, R84) -/

/-- Settles O20: the flush ends every record, and with no response pending nothing else follows from it. -/
theorem planFlushEmptiesTheQueue : Obligations.PlanFlushEmptiesTheQueue := by
  intro tag s ready noPending
  have taken : (s.part.requestTaken 4 tag []).takeFrame 4 [] = (s.part.requestTaken 4 tag []).planFlush := rfl
  have event := requestEvent_eq_closed (kind := 4) (tag := tag) (body := []) ready
  have inHand := requestTaken_inHand ready 4 tag []
  have served := noneWaits_requestTaken ready 4 tag []
  have unmarked := undisturbed_requestTaken 4 tag [] s.part
  obtain ⟨fcu, scr, ltr, sq, -, -, sin, hre, rtu, tst, -⟩ := Part.requestTaken_keeps 4 tag [] s.part ready.1
  have store : (s.part.requestTaken 4 tag []).agenda.store = false := rfl
  generalize s.part.requestTaken 4 tag [] = p at *
  rw [taken] at event
  have still : Still p.planFlush :=
    Still.answer ⟨.inr (by simp [hre, noPending]), by simp [unmarked.returning], by simp [unmarked.period],
      by simp [unmarked.walk]⟩ _ _
  have flushed : p.flush.plp.inHand = some ⟨4, tag, [], .inHand⟩ := by
    unfold Plp.inHand at inHand ⊢
    simpa using inHand
  have sent := mem_closed_tx (answer_sent flushed .ok [byte p.sq.queue.length])
  have closes := event ((served.of_same (by simp) : NoneWaits p.flush).answer _ _)
  obtain ⟨mode, resume, cause, hre', rtu', scr', ltr', sin', queue, -⟩ := still.closed_keeps
  have tst' := still.closed_tst (by simp [store])
  change _ ∈ (closed p.planFlush).plp.tx at sent
  rw [← closes] at mode resume cause hre' rtu' scr' ltr' sin' queue tst' sent
  rw [sq] at sent
  refine ⟨s.event (Part.requestArrived 4 tag []), rfl, queue.trans ?_, sent, mode.trans ?_, resume.trans ?_,
    cause.trans ?_, hre'.trans ?_, rtu'.trans ?_, scr'.trans ?_, ltr'.trans ?_, sin'.trans ?_,
    ⟨rfl, tst'.trans ?_⟩, rfl⟩
  · simp [Part.planFlush, Part.flush_queue]
  all_goals simp [fcu, hre, rtu, scr, ltr, sin, tst]

end Sys2Proof.SegmentQueue
end
